-- ==== Sys2Proof/Word.lean ====
section
/-! DEFINITION. The word types of the block: u8, u32 and u64 as bit vectors (00_scope.md rules R9, R10). -/

namespace Sys2Proof

/-- One byte of a transport that carries words as bytes (20_memory.md rule R50). -/
abbrev Byte := BitVec 8

/-- `u32`: command words, operand words, result words, brightness, periods (00_scope.md rule R8). -/
abbrev Word := BitVec 32

/-- `u64`: `NOW_NS` and timer deadlines, in nanoseconds (00_scope.md rule R8, 10_state.md rule R33). -/
abbrev Time := BitVec 64

end Sys2Proof
end

