-- ==== Sys2Proof/Syntax.lean ====
section
/-! DEFINITION. The syntax of the block: channels, effects, the configuration record, the thirteen
rows of the opcode table as the constructors of `Instr`, and the assembler's lines. -/

namespace Sys2Proof

/-- A channel slot: 0 Red, 1 Green, 2 Blue, 3 White (10_state.md rule R15, 30_encoding.md rule R61). -/
inductive Channel where
  | red | green | blue | white
  deriving DecidableEq, Repr

/-- An effect: 0 Pulse, 1 Blink, 2 Heartbeat, 3 Rainbow (10_state.md rule R25, 30_encoding.md rule R62). -/
inductive Effect where
  | pulse | blink | heartbeat | rainbow
  deriving DecidableEq, Repr

/-- The two kinds a configuration entry may have (70_reset_and_hazards.md rule R138). -/
inductive EntryKind where
  | hardwarePWM | softwarePWM
  deriving DecidableEq, Repr

/-- One entry of the configuration record (70_reset_and_hazards.md rule R138). -/
structure Entry where
  color         : Channel
  kind          : EntryKind
  maxBrightness : Word
  levels        : Option (List Word)
  hwPeriodNs    : Word
  deriving DecidableEq, Repr

/-- The configuration record: a list of entries in discovery order (70_reset_and_hazards.md rule R138). -/
abbrev ConfigRecord := List Entry

/-- The thirteen rows of spec/opcode_table.json (30_encoding.md rule R64): eight host commands and five
internal events.  CH and EF are kept as the 4-bit fields of the word, since the values 4..15 are legal
encodings that the command itself answers with an error status (rules R61, R62).  SETB carries its
operand word V (rule R63) and INIT the record of the configuration port (rule R59, format CFG). -/
inductive Instr where
  | setb (ch : BitVec 4) (v : Word)
  | update
  | act (ch ef : BitVec 4)
  | deact (ef : BitVec 4)
  | shutdown
  | rdb (ch : BitVec 4)
  | rdfx
  | init (cfg : ConfigRecord)
  | fire (ch : BitVec 4)
  | tickPulse
  | tickBlink
  | tickHeartbeat
  | tickRainbow
  deriving DecidableEq, Repr

/-- The mnemonics of the opcode table, one per row (30_encoding.md rule R64). -/
inductive Op where
  | setb | update | act | deact | shutdown | rdb | rdfx | init
  | fire | tickPulse | tickBlink | tickHeartbeat | tickRainbow
  deriving DecidableEq, Repr

/-- One row of the opcode table: a word `w` belongs to it when `w & mask = pattern`
(30_encoding.md rule R64; `pattern` is the table's "match"). -/
structure OpcodeRow where
  op      : Op
  pattern : Word
  mask    : Word
  deriving DecidableEq, Repr

/-- What the ports carry for one command: the words on the command port and the records on the
configuration port (30_encoding.md rule R59). -/
structure Item where
  words   : List Word
  records : List ConfigRecord
  deriving DecidableEq, Repr

/-- Why a word matches no row of the opcode table (30_encoding.md rules R65, R66, R68). -/
inductive DecodeError where
  | reservedOpcode
  | reservedBitsNotZero
  | channelFieldNotZero
  | effectFieldNotZero
  | noSuchTick
  deriving DecidableEq, Repr

/-- What the decoder makes of the head of the ports: an instruction and what is left on the ports, an
illegal word and what is left on the command port, or an item that is not complete yet. -/
inductive Decoded where
  | instr (i : Instr) (words : List Word) (records : List ConfigRecord)
  | illegal (why : DecodeError) (words : List Word)
  | incomplete
  deriving DecidableEq, Repr

/-- `<ch>` of the assembler: R, G, B, W or a number 0..15 (30_encoding.md rule R71). -/
inductive AsmChannel where
  | r | g | b | w
  | number (n : BitVec 4)
  deriving DecidableEq, Repr

/-- `<fx>` of the assembler: a name or a number 0..15 (30_encoding.md rule R71). -/
inductive AsmEffect where
  | pulse | blink | heartbeat | rainbow
  | number (n : BitVec 4)
  deriving DecidableEq, Repr

/-- One line of the assembler: the commands of 30_encoding.md rule R71, the directive `@<t>`, and the
pseudo-instructions of rule R72.  The internal events have no line (rule R67). -/
inductive AsmLine where
  | setb (ch : AsmChannel) (value : Word)
  | update
  | act (fx : AsmEffect) (ch : Option AsmChannel)
  | deact (fx : AsmEffect)
  | shutdown
  | rdb (ch : AsmChannel)
  | rdfx
  | init (cfg : ConfigRecord)
  | issueAt (t : Time)
  | off (ch : AsmChannel)
  | pulse (ch : AsmChannel)
  | blink
  | heartbeat
  | rainbow
  deriving DecidableEq, Repr

end Sys2Proof
end

