-- ==== Sys2Proof/Config.lean ====
section
/-! DEFINITION. The implementation parameters of 00_scope.md rule R8: the spec's literals as constants
(93_implementation_defined.md section 1), the OPEN ones as free values with no body. -/

namespace Sys2Proof.Config

/-- `DEFAULT_PERIOD_NS` (00_scope.md rule R8, 70_reset_and_hazards.md rule R140). -/
def defaultPeriodNs : Word := 7650000

/-- `PULSE_TICK_NS`, the cadence of Pulse and Rainbow (00_scope.md rule R8). -/
def pulseTickNs : Nat := 10000000

/-- `HB_SHORT_NS` (00_scope.md rule R8). -/
def hbShortNs : Nat := 100000000

/-- `HB_LONG_NS` (00_scope.md rule R8). -/
def hbLongNs : Nat := 700000000

/-- `PULSE_LEN` (00_scope.md rule R8, 20_memory.md rule R46 P1). -/
def pulseLen : Nat := 75

/-- The least channel count INIT accepts (00_scope.md rule R8). -/
def minChannels : Nat := 3

/-- The greatest channel count INIT accepts (00_scope.md rule R8). -/
def maxChannels : Nat := 4

/-- Free value behind `BLINK_TICK_NS`: rule R8 of 00_scope.md leaves it open, "any value ≥ 1".
Log entry 10. -/
opaque blinkTickPred : Nat

/-- `BLINK_TICK_NS`, some value ≥ 1 (00_scope.md rule R8). -/
def blinkTickNs : Nat := blinkTickPred + 1

/-- `TIMER_LATENCY_MAX_NS`, a free value ≥ 0 (00_scope.md rule R8, 10_state.md rule R33).  Log entry 11. -/
opaque timerLatencyMaxNs : Nat

/-- `NOTIFY[c]`, the pre-update hook of channel c: a free total function (00_scope.md rule R8,
40_channel_update.md rule R78).  Log entry 12. -/
opaque notify : Channel → Word → Word

/-- Free value: where the run of three 254s of 20_memory.md rule R46 (P4) stands among the entries
7..70, as an offset from entry 7.  Log entry 9. -/
opaque pulsePeakOffset : Fin 62

/-- Free values 0..254 for the PulseTable entries that 20_memory.md rule R46 (P6) leaves open.
Log entry 9. -/
opaque pulseOpenEntry : Nat → Fin 255

end Sys2Proof.Config
end

