-- ==== Sys2Proof/WellFormed.lean ====
section
/-! DEFINITION. Well-formed instructions and assembler lines. -/

namespace Sys2Proof

/-- FIRE names one of the four soft-PWM timers: "c ∈ {0..3}" (41_softpwm.md rule R86).  Every other
instruction is well formed with every value of its fields: the command answers a bad CH or EF with a
status (30_encoding.md rules R61, R62). -/
def Instr.wellFormed : Instr → Bool
  | .setb _ _ => true
  | .update => true
  | .act _ _ => true
  | .deact _ => true
  | .shutdown => true
  | .rdb _ => true
  | .rdfx => true
  | .init _ => true
  | .fire ch => decide (ch.toNat < 4)
  | .tickPulse => true
  | .tickBlink => true
  | .tickHeartbeat => true
  | .tickRainbow => true

/-- The assembler's `<fx>` names Pulse. -/
def AsmEffect.isPulse : AsmEffect → Bool
  | .pulse => true
  | .blink => false
  | .heartbeat => false
  | .rainbow => false
  | .number n => n == 0

/-- ACT takes `<ch>` exactly when `<fx>` is PULSE (30_encoding.md rule R71). -/
def AsmLine.wellFormed : AsmLine → Bool
  | .act fx ch => fx.isPulse == ch.isSome
  | .setb _ _ => true
  | .update => true
  | .deact _ => true
  | .shutdown => true
  | .rdb _ => true
  | .rdfx => true
  | .init _ => true
  | .issueAt _ => true
  | .off _ => true
  | .pulse _ => true
  | .blink => true
  | .heartbeat => true
  | .rainbow => true

end Sys2Proof
end

