-- ==== Sys2Proof/Decode.lean ====
section
/-! DEFINITION. The decoder (30_encoding.md rules R59 to R69), total on any words and any bytes and
rejecting by name; the encoder, from the same table; the assembler (rules R71, R72). -/

namespace Sys2Proof

/-- The number of a channel (10_state.md rule R15). -/
def Channel.number : Channel → Nat
  | .red => 0
  | .green => 1
  | .blue => 2
  | .white => 3

/-- The channel a CH field names; 4..15 name none (30_encoding.md rule R61). -/
def Channel.ofField (ch : BitVec 4) : Option Channel :=
  if ch = 0 then some .red
  else if ch = 1 then some .green
  else if ch = 2 then some .blue
  else if ch = 3 then some .white
  else none

/-- The CH field that names a channel (30_encoding.md rule R61). -/
def Channel.field (c : Channel) : BitVec 4 := BitVec.ofNat 4 c.number

/-- The number of an effect (10_state.md rule R25). -/
def Effect.number : Effect → Nat
  | .pulse => 0
  | .blink => 1
  | .heartbeat => 2
  | .rainbow => 3

/-- The effect an EF field names; 4..15 name none (30_encoding.md rule R62). -/
def Effect.ofField (ef : BitVec 4) : Option Effect :=
  if ef = 0 then some .pulse
  else if ef = 1 then some .blink
  else if ef = 2 then some .heartbeat
  else if ef = 3 then some .rainbow
  else none

/-- The EF field that names an effect (30_encoding.md rule R62). -/
def Effect.field (k : Effect) : BitVec 4 := BitVec.ofNat 4 k.number

/-- `OP = W[31:24]` (30_encoding.md rule R60). -/
def opField (w : Word) : BitVec 8 := w.extractLsb' 24 8

/-- `CH = W[23:20]` (30_encoding.md rule R60). -/
def chField (w : Word) : BitVec 4 := w.extractLsb' 20 4

/-- `EF = W[19:16]` (30_encoding.md rule R60). -/
def efField (w : Word) : BitVec 4 := w.extractLsb' 16 4

/-- `RSV = W[15:0]` (30_encoding.md rule R60). -/
def rsvField (w : Word) : BitVec 16 := w.extractLsb' 0 16

/-- The host commands of the opcode map (30_encoding.md rule R64). -/
def hostRows : List OpcodeRow :=
  [ { op := .setb,     pattern := 0x01000000, mask := 0xFF0FFFFF },
    { op := .update,   pattern := 0x02000000, mask := 0xFFFFFFFF },
    { op := .act,      pattern := 0x03000000, mask := 0xFF00FFFF },
    { op := .deact,    pattern := 0x04000000, mask := 0xFFF0FFFF },
    { op := .shutdown, pattern := 0x05000000, mask := 0xFFFFFFFF },
    { op := .rdb,      pattern := 0x06000000, mask := 0xFF0FFFFF },
    { op := .rdfx,     pattern := 0x07000000, mask := 0xFFFFFFFF },
    { op := .init,     pattern := 0x10000000, mask := 0xFFFFFFFF } ]

/-- The internal events of the opcode map (30_encoding.md rules R64, R67). -/
def eventRows : List OpcodeRow :=
  [ { op := .fire,          pattern := 0x80000000, mask := 0xFF0FFFFF },
    { op := .tickPulse,     pattern := 0x81000000, mask := 0xFFFFFFFF },
    { op := .tickBlink,     pattern := 0x81010000, mask := 0xFFFFFFFF },
    { op := .tickHeartbeat, pattern := 0x81020000, mask := 0xFFFFFFFF },
    { op := .tickRainbow,   pattern := 0x81030000, mask := 0xFFFFFFFF } ]

/-- The thirteen rows of the opcode map (30_encoding.md rule R64). -/
def opcodeRows : List OpcodeRow := hostRows ++ eventRows

/-- `W & mask = match` (30_encoding.md rule R64). -/
def OpcodeRow.holds (r : OpcodeRow) (w : Word) : Bool := (w &&& r.mask) == r.pattern

/-- The row a word belongs to, if any (30_encoding.md rule R64). -/
def rowOf (w : Word) : Option Op := (opcodeRows.find? (·.holds w)).map (·.op)

/-- The operation codes in use (30_encoding.md rule R68). -/
def knownOpcodes : List (BitVec 8) := [0x01, 0x02, 0x03, 0x04, 0x05, 0x06, 0x07, 0x10, 0x80, 0x81]

/-- The name under which a word that matches no row is rejected (30_encoding.md rules R65, R66, R68):
a reserved OP first, then a non-zero RSV, then a CH and then an EF that must be 0; under OP 0x81 an EF
of 4..15 names no tick. -/
def whyIllegal (w : Word) : DecodeError :=
  if opField w ∉ knownOpcodes then .reservedOpcode
  else if rsvField w ≠ 0 then .reservedBitsNotZero
  else if opField w = 0x81 ∧ chField w = 0 then .noSuchTick
  else if opField w ∈ [(0x01 : BitVec 8), 0x06, 0x80] then .effectFieldNotZero
  else if chField w ≠ 0 then .channelFieldNotZero
  else .effectFieldNotZero

/-- The decoder: the word at the head of the command port, its operand word where its row is SETB and
its configuration record where its row is INIT (30_encoding.md rules R59, R64, R66, R69).  An illegal
word consumes nothing but itself (rule R66). -/
def decode : List Word → List ConfigRecord → Decoded
  | [], _ => .incomplete
  | w :: ws, cs =>
    match rowOf w with
    | none => .illegal (whyIllegal w) ws
    | some .setb =>
      match ws with
      | v :: ws' => .instr (.setb (chField w) v) ws' cs
      | [] => .incomplete
    | some .update => .instr .update ws cs
    | some .act => .instr (.act (chField w) (efField w)) ws cs
    | some .deact => .instr (.deact (efField w)) ws cs
    | some .shutdown => .instr .shutdown ws cs
    | some .rdb => .instr (.rdb (chField w)) ws cs
    | some .rdfx => .instr .rdfx ws cs
    | some .init =>
      match cs with
      | cfg :: cs' => .instr (.init cfg) ws cs'
      | [] => .incomplete
    | some .fire => .instr (.fire (chField w)) ws cs
    | some .tickPulse => .instr .tickPulse ws cs
    | some .tickBlink => .instr .tickBlink ws cs
    | some .tickHeartbeat => .instr .tickHeartbeat ws cs
    | some .tickRainbow => .instr .tickRainbow ws cs

/-- The instruction is an internal event, format EVT (30_encoding.md rules R59, R67). -/
def Instr.isEvent : Instr → Bool
  | .setb _ _ => false
  | .update => false
  | .act _ _ => false
  | .deact _ => false
  | .shutdown => false
  | .rdb _ => false
  | .rdfx => false
  | .init _ => false
  | .fire _ => true
  | .tickPulse => true
  | .tickBlink => true
  | .tickHeartbeat => true
  | .tickRainbow => true

/-- A transport that carries a word as bytes: byte 0 holds bits 7:0 (20_memory.md rule R50). -/
def wordOfBytes (b0 b1 b2 b3 : Byte) : Word := b3 ++ b2 ++ b1 ++ b0

/-- The four bytes of a word, byte 0 first (20_memory.md rule R50). -/
def bytesOfWord (w : Word) : List Byte :=
  [w.extractLsb' 0 8, w.extractLsb' 8 8, w.extractLsb' 16 8, w.extractLsb' 24 8]

/-- The whole words at the head of a byte stream; up to three bytes at its end make no word yet. -/
def wordsOfBytes : List Byte → List Word
  | b0 :: b1 :: b2 :: b3 :: bs => wordOfBytes b0 b1 b2 b3 :: wordsOfBytes bs
  | _ => []

/-- The decoder on a byte stream (20_memory.md rule R50). -/
def decodeBytes (bs : List Byte) (cs : List ConfigRecord) : Decoded := decode (wordsOfBytes bs) cs

/-- The command word with the four fields of 30_encoding.md rule R60, RSV = 0. -/
def commandWord (op : BitVec 8) (ch ef : BitVec 4) : Word := op ++ ch ++ ef ++ (0 : BitVec 16)

/-- The encoder: the words and the record of an instruction (30_encoding.md rules R59, R60, R64). -/
def encode : Instr → Item
  | .setb ch v => { words := [commandWord 0x01 ch 0, v], records := [] }
  | .update => { words := [commandWord 0x02 0 0], records := [] }
  | .act ch ef => { words := [commandWord 0x03 ch ef], records := [] }
  | .deact ef => { words := [commandWord 0x04 0 ef], records := [] }
  | .shutdown => { words := [commandWord 0x05 0 0], records := [] }
  | .rdb ch => { words := [commandWord 0x06 ch 0], records := [] }
  | .rdfx => { words := [commandWord 0x07 0 0], records := [] }
  | .init cfg => { words := [commandWord 0x10 0 0], records := [cfg] }
  | .fire ch => { words := [commandWord 0x80 ch 0], records := [] }
  | .tickPulse => { words := [commandWord 0x81 0 0], records := [] }
  | .tickBlink => { words := [commandWord 0x81 0 1], records := [] }
  | .tickHeartbeat => { words := [commandWord 0x81 0 2], records := [] }
  | .tickRainbow => { words := [commandWord 0x81 0 3], records := [] }

/-- The word of a table number: its low 32 bits (the table's first word). -/
def firstTableWord (nbits w : Nat) : Word := BitVec.ofNat 32 (w % 2 ^ nbits)

/-- The operand word of a table number: its bits 63..32 (the table's second word). -/
def secondTableWord (nbits w : Nat) : Word := BitVec.ofNat 32 ((w % 2 ^ nbits) / 2 ^ 32)

/-- The instruction the decoder reads from the bits `w` of a row of spec/opcode_table.json: the words are
laid out as little-endian bytes, the second one (bits 63..32, zero above `nbits`) being there for SETB's
operand, and the configuration port holds an empty record for INIT. -/
def decodeTableWord (nbits w : Nat) : Option Instr :=
  match decodeBytes (bytesOfWord (firstTableWord nbits w) ++ bytesOfWord (secondTableWord nbits w)) [[]] with
  | .instr i _ _ => some i
  | .illegal _ _ => none
  | .incomplete => none

/-- The CH field of an assembler's `<ch>`: R, G, B, W stand for 0, 1, 2, 3 (30_encoding.md rule R71). -/
def AsmChannel.field : AsmChannel → BitVec 4
  | .r => Channel.red.field
  | .g => Channel.green.field
  | .b => Channel.blue.field
  | .w => Channel.white.field
  | .number n => n

/-- The EF field of an assembler's `<fx>` (30_encoding.md rule R71). -/
def AsmEffect.field : AsmEffect → BitVec 4
  | .pulse => Effect.pulse.field
  | .blink => Effect.blink.field
  | .heartbeat => Effect.heartbeat.field
  | .rainbow => Effect.rainbow.field
  | .number n => n

/-- The CH field of ACT's optional `<ch>`: absent encodes CH = 0 (30_encoding.md rule R71). -/
def optionalChannelField : Option AsmChannel → BitVec 4
  | some ch => ch.field
  | none => 0

/-- The command an assembler line stands for: rule R71 of 30_encoding.md, and the expansions of rule R72
for the pseudo-instructions.  The directive `@<t>` is no command, and an ill-formed line assembles to
nothing. -/
def AsmLine.command (l : AsmLine) : Option Instr :=
  if l.wellFormed then
    match l with
    | .setb ch v => some (.setb ch.field v)
    | .update => some .update
    | .act fx ch => some (.act (optionalChannelField ch) fx.field)
    | .deact fx => some (.deact fx.field)
    | .shutdown => some .shutdown
    | .rdb ch => some (.rdb ch.field)
    | .rdfx => some .rdfx
    | .init cfg => some (.init cfg)
    | .issueAt _ => none
    | .off ch => some (.setb ch.field 0)
    | .pulse ch => some (.act ch.field Effect.pulse.field)
    | .blink => some (.act 0 Effect.blink.field)
    | .heartbeat => some (.act 0 Effect.heartbeat.field)
    | .rainbow => some (.act 0 Effect.rainbow.field)
  else none

/-- Assemble lines into commands with their issue times; `t` is the time in force, which `@<t>` replaces
for the lines that follow it (30_encoding.md rule R71).  `none` where a line is ill formed. -/
def assemble : List AsmLine → Time → Option (List (Time × Instr))
  | [], _ => some []
  | .issueAt t' :: ls, _ => assemble ls t'
  | l :: ls, t =>
    match l.command, assemble ls t with
    | some i, some rest => some ((t, i) :: rest)
    | _, _ => none

end Sys2Proof
end

