-- ==== Sys2Proof/Machine/State.lean ====
section
/-! DEFINITION. The state of the block as plain data (10_state.md), the outside world's inputs beside it,
the state after reset, and the reasons a step can stop. -/

namespace Sys2Proof.Machine

/-- One value per channel slot: the `[c]` of 10_state.md rule R17. -/
structure Bank (α : Type) where
  red   : α
  green : α
  blue  : α
  white : α
  deriving DecidableEq, Repr

/-- `REG[c]`. -/
def Bank.get {α : Type} (b : Bank α) : Channel → α
  | .red => b.red
  | .green => b.green
  | .blue => b.blue
  | .white => b.white

/-- `REG[c] <- v`. -/
def Bank.set {α : Type} (b : Bank α) (c : Channel) (v : α) : Bank α :=
  match c with
  | .red => { b with red := v }
  | .green => { b with green := v }
  | .blue => { b with blue := v }
  | .white => { b with white := v }

/-- The bank whose entry for c is `f c`. -/
def Bank.ofFn {α : Type} (f : Channel → α) : Bank α :=
  { red := f .red, green := f .green, blue := f .blue, white := f .white }

/-- The bank that holds `v` in every slot. -/
def Bank.all {α : Type} (v : α) : Bank α := { red := v, green := v, blue := v, white := v }

/-- One value per effect: the `[k]` of 10_state.md rule R30. -/
structure FxBank (α : Type) where
  pulse     : α
  blink     : α
  heartbeat : α
  rainbow   : α
  deriving DecidableEq, Repr

/-- `REG[k]`. -/
def FxBank.get {α : Type} (b : FxBank α) : Effect → α
  | .pulse => b.pulse
  | .blink => b.blink
  | .heartbeat => b.heartbeat
  | .rainbow => b.rainbow

/-- `REG[k] <- v`. -/
def FxBank.set {α : Type} (b : FxBank α) (k : Effect) (v : α) : FxBank α :=
  match k with
  | .pulse => { b with pulse := v }
  | .blink => { b with blink := v }
  | .heartbeat => { b with heartbeat := v }
  | .rainbow => { b with rainbow := v }

/-- The bank whose entry for k is `f k`. -/
def FxBank.ofFn {α : Type} (f : Effect → α) : FxBank α :=
  { pulse := f .pulse, blink := f .blink, heartbeat := f .heartbeat, rainbow := f .rainbow }

/-- The bank that holds `v` for every effect. -/
def FxBank.all {α : Type} (v : α) : FxBank α := { pulse := v, blink := v, heartbeat := v, rainbow := v }

/-- `KIND[c]`: 0 Unassigned, 1 HardwarePWM, 2 SoftwarePWM; 3 is never written (10_state.md rule R18). -/
inductive Kind where
  | unassigned | hardwarePWM | softwarePWM
  deriving DecidableEq, Repr

/-- A pin level: 0 Low, 1 High (10_state.md rule R23). -/
inductive Level where
  | low | high
  deriving DecidableEq, Repr

/-- A one-shot timer (10_state.md rule R31). -/
structure Timer where
  armed    : Bool
  deadline : Time
  deriving DecidableEq, Repr

/-- The names of the eight timers (60_exceptions.md rule R124). -/
inductive TimerId where
  | soft (c : Channel)
  | effect (k : Effect)
  deriving DecidableEq, Repr

/-- `LIFECYCLE`: 0 UNCONFIGURED, 1 RUNNING, 2 SHUTDOWN; 3 is never written (10_state.md rule R32). -/
inductive Lifecycle where
  | unconfigured | running | shutdown
  deriving DecidableEq, Repr

/-- `FAULT`: 0 NONE, 1 INTERVAL_NONPOSITIVE, 2 INVARIANT_VIOLATION; 3 is never written
(10_state.md rule R34, 60_exceptions.md rule R121). -/
inductive FaultCause where
  | none | intervalNonpositive | invariantViolation
  deriving DecidableEq, Repr

/-- The state of a channel's PWM generator as its port writes left it; `none` is UNKNOWN
(10_state.md rule R36). -/
structure Generator where
  enabled  : Option Bool
  dutyNs   : Option Word
  periodNs : Option Word
  deriving DecidableEq, Repr

/-- The output events (10_state.md rule R37). -/
inductive PortEvent where
  | acquire
  | release
  | pwmSet (dutyNs periodNs : Word)
  | pwmEnable
  | pwmDisable
  | gpioWrite (level : Level)
  | notifyAfter (b : Word)
  deriving DecidableEq, Repr

/-- One entry `(t, c, e)` of the output event log (10_state.md rule R37). -/
structure LogEntry where
  time    : Time
  channel : Channel
  event   : PortEvent
  deriving DecidableEq, Repr

/-- The status codes of 60_exceptions.md rule R118. -/
inductive Status where
  | ok
  | invalidBrightness
  | configurationError
  | resourceUnavailable
  | invalidChannel
  | invalidEffect
  | illegalCommand
  | invalidState
  deriving DecidableEq, Repr

/-- The response of a host command: status code and result word (30_encoding.md rule R70). -/
structure Response where
  status : Status
  result : Word
  deriving DecidableEq, Repr

/-- What the resource oracle answers for the handles of entries 0..3 of a configuration list
(70_reset_and_hazards.md rule R141); INIT asks for at most four. -/
structure Answers where
  entry0 : Bool
  entry1 : Bool
  entry2 : Bool
  entry3 : Bool
  deriving DecidableEq, Repr

/-- A move the outside world proposes: which agent of 00_scope.md rule R7 steps next, or the platform's
reset (70_reset_and_hazards.md rule R135).  Log entry 1. -/
inductive Action where
  /-- The host issues the command at the head of its ports; should it be INIT, the resource oracle
  gives these answers. -/
  | host (answers : Answers)
  /-- The timer unit performs the event this EVT word names (30_encoding.md rule R67). -/
  | event (w : Word)
  /-- The clock performs `ADVANCE(t)` (10_state.md rule R33). -/
  | advance (t : Time)
  /-- The platform asserts reset. -/
  | reset
  deriving DecidableEq, Repr

/-- The state: the registers of 10_state.md rule R38 under their own names, the output-side state of
rules R36 and R37, the record of a fault (60_exceptions.md rule R121), the last response, and the
inputs of the outside world that a step reads (log entries 1, 5, 6). -/
structure State where
  /-- `KIND[c]` (rule R18). -/
  kind        : Bank Kind
  /-- `MAXB[c]` (rule R19). -/
  maxb        : Bank Word
  /-- `BRIGHT[c]` (rule R20). -/
  bright      : Bank Word
  /-- `LTH[c]` (rule R22). -/
  lth         : Bank Word
  /-- `LEVELS[c]`, absent or a table (20_memory.md rule R47). -/
  levels      : Bank (Option (List Word))
  /-- `SW_LEVEL[c]` (rule R23). -/
  swLevel     : Bank Level
  /-- `SWT[c]` (rule R24). -/
  swt         : Bank Timer
  /-- `PERIOD_NS` (rule R21). -/
  periodNs    : Word
  /-- `ACTIVE_MASK` (rule R25). -/
  activeMask  : BitVec 4
  /-- `STEP` (rule R26). -/
  fxStep      : Word
  /-- `PHASE`, 0..5; 6 and 7 are never written (rule R27). -/
  phase       : Fin 6
  /-- `SAVED_COLOR[c]` (rule R28). -/
  savedColor  : Bank Word
  /-- `PULSE_CH`, invalid or valid with a channel (rule R29). -/
  pulseCh     : Option Channel
  /-- `FXT[k]` (rule R30). -/
  fxt         : FxBank Timer
  /-- `LIFECYCLE` (rule R32). -/
  lifecycle   : Lifecycle
  /-- `FAULT` (rule R34). -/
  fault       : FaultCause
  /-- The event or command that raised the fault (60_exceptions.md rule R121). -/
  faultBy     : Option Instr
  /-- `NOW_NS` (rule R33). -/
  nowNs       : Time
  /-- `ACQUIRED[c]` (rule R36). -/
  acquired    : Bank Bool
  /-- `GEN_ENABLED[c]`, `GEN_DUTY_NS[c]`, `GEN_PERIOD_NS[c]` (rule R36). -/
  generator   : Bank Generator
  /-- `PIN[c]`, `none` is UNKNOWN (rule R36). -/
  pin         : Bank (Option Level)
  /-- The output event log, oldest first (rule R37). -/
  log         : List LogEntry
  /-- The response of the last host command that returned one (30_encoding.md rule R70).  Log entry 6. -/
  response    : Option Response
  /-- The words the host has put on the command port, next first (30_encoding.md rule R59). -/
  cmdPort     : List Word
  /-- The records the host has put on the configuration port, next first (30_encoding.md rule R59). -/
  cfgPort     : List ConfigRecord
  /-- The resource oracle's answers for the host command in progress.  Log entry 5. -/
  oracle      : Answers
  /-- The moves the outside world proposes, next first.  Log entry 1. -/
  agenda      : List Action
  deriving DecidableEq, Repr

/-- A disarmed timer with deadline 0 (10_state.md rule R41). -/
def Timer.atReset : Timer := { armed := false, deadline := 0 }

/-- A generator in the state UNKNOWN (10_state.md rule R36). -/
def Generator.unknown : Generator := { enabled := none, dutyNs := none, periodNs := none }

/-- The state after reset (10_state.md rule R41, 70_reset_and_hazards.md rule R135), with nothing on the
ports and nothing proposed.  The spec gives the reset value of every register; `oracle` is the model's
own field (log entry 5). -/
def State.reset : State where
  kind := Bank.all .unassigned
  maxb := Bank.all 0
  bright := Bank.all 0
  lth := Bank.all 0
  levels := Bank.all none
  swLevel := Bank.all .low
  swt := Bank.all Timer.atReset
  periodNs := 0
  activeMask := 0
  fxStep := 0
  phase := 0
  savedColor := Bank.all 0
  pulseCh := none
  fxt := FxBank.all Timer.atReset
  lifecycle := .unconfigured
  fault := .none
  faultBy := none
  nowNs := 0
  acquired := Bank.all false
  generator := Bank.all Generator.unknown
  pin := Bank.all none
  log := []
  response := none
  cmdPort := []
  cfgPort := []
  oracle := { entry0 := true, entry1 := true, entry2 := true, entry3 := true }
  agenda := []

/-- Why a step can stop. -/
inductive Fault where
  /-- Raised by `step` alone, in a state whose FAULT register is not NONE: "no agent has a step, and
  only reset clears it" (10_state.md rule R34, 60_exceptions.md rule R121).  Safe: it is the spec's
  own end of the run. -/
  | halted (cause : FaultCause)
  deriving DecidableEq, Repr

/-- Why the model may refuse a step. -/
inductive Refusal where
  /-- Raised by an arm of `exec` whose instruction has no meaning yet; no arm raises it.  Safe. -/
  | notModelled (mnemonic : String)
  deriving DecidableEq, Repr

/-- What an internal procedure leaves (00_scope.md rules R11, R12): the state after its last statement,
or the state at the statement `fault F` that ended it. -/
inductive Proc where
  | ok (s : State)
  | stop (cause : FaultCause) (s : State)
  deriving DecidableEq, Repr

end Sys2Proof.Machine
end

