-- ==== Sys2Proof/Machine/Operands.lean ====
section
/-! DEFINITION. Operand forms: reading the channel bank, the two lookup tables, the configuration record
and the timers. -/

namespace Sys2Proof.Machine

/-- The four channels in index order (40_channel_update.md rule R80). -/
def allChannels : List Channel := [.red, .green, .blue, .white]

/-- The eight timers, effect timers before soft-PWM timers, then by index (60_exceptions.md rules R124, R127). -/
def allTimers : List TimerId :=
  [.effect .pulse, .effect .blink, .effect .heartbeat, .effect .rainbow,
   .soft .red, .soft .green, .soft .blue, .soft .white]

/-- A register that an Unassigned channel hard-wires to 0 (10_state.md rule R43). -/
def hardwired (k : Kind) (v : Word) : Word :=
  match k with
  | .unassigned => 0
  | .hardwarePWM => v
  | .softwarePWM => v

/-- Reading `BRIGHT[c]` (10_state.md rules R20, R43). -/
def State.brightOf (s : State) (c : Channel) : Word := hardwired (s.kind.get c) (s.bright.get c)

/-- Reading `MAXB[c]` (10_state.md rules R19, R43). -/
def State.maxbOf (s : State) (c : Channel) : Word := hardwired (s.kind.get c) (s.maxb.get c)

/-- Reading `LTH[c]` (10_state.md rules R22, R43). -/
def State.lthOf (s : State) (c : Channel) : Word := hardwired (s.kind.get c) (s.lth.get c)

/-- Reading `LEVELS[c]`: an Unassigned channel has no levels table (10_state.md rule R43). -/
def State.levelsOf (s : State) (c : Channel) : Option (List Word) :=
  match s.kind.get c with
  | .unassigned => none
  | .hardwarePWM => s.levels.get c
  | .softwarePWM => s.levels.get c

/-- `min(v, m)` on u32 (00_scope.md rule R10). -/
def clampTo (m v : Word) : Word := if v ≤ m then v else m

/-- `MemRead(LEVELS[c], i)`; `none` is a read out of range (20_memory.md rule R48). -/
def levelsRead (t : List Word) (i : Word) : Option Word := t[i.toNat]?

/-- Entry i of PULSE_TABLE for i ≤ 74: the entries 20_memory.md rule R46 fixes (P3, P5), the run of three
254s (P4) at a free place, and free values 0..254 elsewhere (P2, P6).  Log entry 9. -/
def pulseEntry (i : Nat) : Nat :=
  match i with
  | 0 => 0
  | 1 => 1
  | 2 => 2
  | 3 => 3
  | 4 => 4
  | 5 => 6
  | 6 => 8
  | n + 7 =>
    if 71 ≤ n + 7 then 0
    else if Config.pulsePeakOffset.val ≤ n ∧ n < Config.pulsePeakOffset.val + 3 then 254
    else (Config.pulseOpenEntry (n + 7)).val

/-- `MemRead(PULSE, i)`; `none` is a read out of range (20_memory.md rule R48). -/
def pulseRead (i : Nat) : Option Word :=
  if i < Config.pulseLen then some (BitVec.ofNat 32 (pulseEntry i)) else none

/-- The timer T of a name (10_state.md rules R24, R30). -/
def State.timer (s : State) : TimerId → Timer
  | .soft c => s.swt.get c
  | .effect k => s.fxt.get k

/-- T is due when `T.armed = 1 ∧ T.deadline ≤ NOW_NS` (10_state.md rule R31). -/
def State.due (s : State) (t : TimerId) : Bool :=
  (s.timer t).armed && decide ((s.timer t).deadline ≤ s.nowNs)

/-- The timer whose firing an internal event is (60_exceptions.md rule R124); a FIRE with CH 4..15 names
none. -/
def eventTimer : Instr → Option TimerId
  | .fire ch => (Channel.ofField ch).map TimerId.soft
  | .tickPulse => some (.effect .pulse)
  | .tickBlink => some (.effect .blink)
  | .tickHeartbeat => some (.effect .heartbeat)
  | .tickRainbow => some (.effect .rainbow)
  | .setb _ _ => none
  | .update => none
  | .act _ _ => none
  | .deact _ => none
  | .shutdown => none
  | .rdb _ => none
  | .rdfx => none
  | .init _ => none

/-- The EVT word of a timer's event: `0x80000000 | c << 20` and `0x81000000 | k << 16`
(41_softpwm.md rule R86, 42_effects.md rule R95). -/
def TimerId.word : TimerId → Word
  | .soft c => commandWord 0x80 c.field 0
  | .effect k => commandWord 0x81 0 k.field

/-- The kind of an entry as a `KIND[c]` value (70_reset_and_hazards.md rule R139). -/
def kindOfEntry : EntryKind → Kind
  | .hardwarePWM => .hardwarePWM
  | .softwarePWM => .softwarePWM

/-- The entry of channel c in a configuration record (70_reset_and_hazards.md rule R139). -/
def entryFor (cfg : ConfigRecord) (c : Channel) : Option Entry := cfg.find? (fun e => e.color == c)

/-- The oracle's answers in list order (70_reset_and_hazards.md rule R141). -/
def Answers.toList (a : Answers) : List Bool := [a.entry0, a.entry1, a.entry2, a.entry3]

end Sys2Proof.Machine
end

