-- ==== Sys2Proof/Machine/Flags.lean ====
section
/-! DEFINITION. The block has no condition codes (10_state.md rule R35).  Its flag-like values: the bits of
ACTIVE_MASK, the numeric codes of its enumerations, and the response of a command. -/

namespace Sys2Proof.Machine

/-- Bit k of ACTIVE_MASK, `1 << k` (10_state.md rule R25). -/
def effectBit (k : Effect) : BitVec 4 := 1 <<< k.number

/-- `(ACTIVE_MASK >> k) & 1 = 1` (42_effects.md rules R93, R95). -/
def maskHas (m : BitVec 4) (k : Effect) : Bool := (m >>> k.number) &&& 1 == 1

/-- `ACTIVE_MASK & ~(1 << k)` (42_effects.md rule R92). -/
def maskClear (m : BitVec 4) (k : Effect) : BitVec 4 := m &&& ~~~(effectBit k)

/-- The effect a whose bit is the set bit of ACTIVE_MASK, where exactly one is set (42_effects.md rule R91). -/
def activeEffect (m : BitVec 4) : Option Effect :=
  if m = effectBit .pulse then some .pulse
  else if m = effectBit .blink then some .blink
  else if m = effectBit .heartbeat then some .heartbeat
  else if m = effectBit .rainbow then some .rainbow
  else none

/-- The number of a KIND value (10_state.md rule R18). -/
def Kind.code : Kind → Nat
  | .unassigned => 0
  | .hardwarePWM => 1
  | .softwarePWM => 2

/-- The number of a level (10_state.md rule R23). -/
def Level.code : Level → Nat
  | .low => 0
  | .high => 1

/-- The number of a LIFECYCLE value (10_state.md rule R32). -/
def Lifecycle.code : Lifecycle → Nat
  | .unconfigured => 0
  | .running => 1
  | .shutdown => 2

/-- The number of a FAULT value (10_state.md rule R34, 60_exceptions.md rule R121). -/
def FaultCause.code : FaultCause → Nat
  | .none => 0
  | .intervalNonpositive => 1
  | .invariantViolation => 2

/-- The 8-bit status code (60_exceptions.md rule R118). -/
def Status.code : Status → BitVec 8
  | .ok => 0
  | .invalidBrightness => 1
  | .configurationError => 2
  | .resourceUnavailable => 3
  | .invalidChannel => 4
  | .invalidEffect => 5
  | .illegalCommand => 6
  | .invalidState => 7

/-- `PULSE_CH` as 3 bits: bit 2 valid, bits 1:0 the channel index (10_state.md rule R29). -/
def pulseChCode : Option Channel → Nat
  | some c => 4 + c.number
  | none => 0

/-- `not SW_LEVEL[c]` (41_softpwm.md rule R86). -/
def Level.flip : Level → Level
  | .low => .high
  | .high => .low

/-- `return s, r`: the command's response (00_scope.md rule R11, 30_encoding.md rule R70). -/
def State.respond (st : Status) (r : Word) (s : State) : State :=
  { s with response := some { status := st, result := r } }

end Sys2Proof.Machine
end

