-- ==== Sys2Proof/Machine/Ops.lean ====
section
/-! DEFINITION. The named operations over registers, timers, ports and the event log (00_scope.md rule R11),
the one operation that raises a fault, and the endings of commands and events. -/

namespace Sys2Proof.Machine

/-- `BRIGHT[c] <- v`; an Unassigned channel stays 0 (10_state.md rules R20, R43). -/
def State.setBright (c : Channel) (v : Word) (s : State) : State :=
  { s with bright := s.bright.set c (hardwired (s.kind.get c) v) }

/-- `BRIGHT[c] <- f c` for every channel; an Unassigned channel stays 0 (10_state.md rule R43). -/
def State.setAllBright (f : Channel → Word) (s : State) : State :=
  { s with bright := Bank.ofFn (fun c => hardwired (s.kind.get c) (f c)) }

/-- `BRIGHT[c] <- SAVED_COLOR[c]` for every channel (42_effects.md rules R92, R97, R98). -/
def State.restoreColor (s : State) : State := s.setAllBright s.savedColor.get

/-- `BRIGHT[c] <- 0` for every channel (42_effects.md rules R97, R98). -/
def State.darken (s : State) : State := s.setAllBright (fun _ => 0)

/-- `SAVED_COLOR[c] <- BRIGHT[c]` for every channel (42_effects.md rule R91). -/
def State.snapshot (s : State) : State := { s with savedColor := Bank.ofFn s.brightOf }

/-- `SW_LEVEL[c] <- l` (10_state.md rule R23). -/
def State.setSwLevel (c : Channel) (l : Level) (s : State) : State :=
  { s with swLevel := s.swLevel.set c l }

/-- `arm(T, d)` on a timer (10_state.md rule R31). -/
def Timer.arm (d : Time) : Timer := { armed := true, deadline := d }

/-- `disarm(T)` on a timer: the deadline stays (10_state.md rule R31). -/
def Timer.disarm (t : Timer) : Timer := { t with armed := false }

/-- `arm(SWT[c], d)` (10_state.md rule R31). -/
def State.armSwt (c : Channel) (d : Time) (s : State) : State :=
  { s with swt := s.swt.set c (Timer.arm d) }

/-- `disarm(SWT[c])` (10_state.md rule R31). -/
def State.disarmSwt (c : Channel) (s : State) : State :=
  { s with swt := s.swt.set c (s.swt.get c).disarm }

/-- `arm(FXT[k], d)` (10_state.md rule R31). -/
def State.armFxt (k : Effect) (d : Time) (s : State) : State :=
  { s with fxt := s.fxt.set k (Timer.arm d) }

/-- `disarm(FXT[k])` (10_state.md rule R31). -/
def State.disarmFxt (k : Effect) (s : State) : State :=
  { s with fxt := s.fxt.set k (s.fxt.get k).disarm }

/-- `disarm` of all eight timers (43_facade.md rule R111, 70_reset_and_hazards.md rule R139). -/
def State.disarmAll (s : State) : State :=
  { s with
    swt := Bank.ofFn (fun c => (s.swt.get c).disarm),
    fxt := FxBank.ofFn (fun k => (s.fxt.get k).disarm) }

/-- `NOW_NS + d`: "Arithmetic on deadlines is modulo 2^64" (10_state.md rule R33).  Log entry 7. -/
def State.deadlineIn (s : State) (d : Nat) : Time := BitVec.ofNat 64 (s.nowNs.toNat + d)

/-- What an event does to the generator's registers: they are "updated by PWM_SET, PWM_ENABLE and PWM_DISABLE
events" (10_state.md rules R36, R37).  ACQUIRE writes no register by itself (60_exceptions.md rule R119).
Log entry 13. -/
def generatorAfter (g : Generator) : PortEvent → Generator
  | .acquire => g
  | .release => g
  | .pwmSet d p => { g with dutyNs := some d, periodNs := some p }
  | .pwmEnable => { g with enabled := some true }
  | .pwmDisable => { g with enabled := some false }
  | .gpioWrite _ => g
  | .notifyAfter _ => g

/-- What an event does to the pin, which is "updated by GPIO_WRITE events" (10_state.md rules R36, R37).
Log entry 13. -/
def pinAfter (p : Option Level) : PortEvent → Option Level
  | .acquire => p
  | .release => p
  | .pwmSet _ _ => p
  | .pwmEnable => p
  | .pwmDisable => p
  | .gpioWrite l => some l
  | .notifyAfter _ => p

/-- `emit (c, e)`: the event enters the log stamped with NOW_NS and reaches channel c's output port
(00_scope.md rule R11, 10_state.md rules R36, R37). -/
def State.emit (c : Channel) (e : PortEvent) (s : State) : State :=
  { s with
    log := s.log ++ [{ time := s.nowNs, channel := c, event := e }],
    generator := s.generator.set c (generatorAfter (s.generator.get c) e),
    pin := s.pin.set c (pinAfter (s.pin.get c) e) }

/-- Emit a list of events in order (10_state.md rule R37). -/
def State.emitAll (es : List (Channel × PortEvent)) (s : State) : State :=
  es.foldl (fun t ce => t.emit ce.1 ce.2) s

/-- TAKING A FAULT, the block's only exception: `fault F` sets the sticky FAULT register to the cause F,
and the model records the event or command that raised it; nothing is saved, no handler is entered, and
no later step of any agent exists until reset (60_exceptions.md rules R121, R128, R129).  Log entry 4. -/
def State.raiseFault (cause : FaultCause) (i : Instr) (s : State) : State :=
  { s with fault := cause, faultBy := some i }

/-- One procedure after another; a fault ends both (00_scope.md rule R11). -/
def Proc.andThen (p : Proc) (f : State → Proc) : Proc :=
  match p with
  | .ok s => f s
  | .stop cause s => .stop cause s

/-- `raise s`: return an error status with result 0 and nothing written (60_exceptions.md rule R119). -/
def reject (st : Status) (s : State) : Host.Outcome State Fault Refusal := .next (s.respond st 0)

/-- The end of a host command whose checks have passed: `return OK, 0` after its procedure, or the fault
the procedure ran into, which returns no response (60_exceptions.md rules R118, R121). -/
def endCommand (i : Instr) (p : Proc) : Host.Outcome State Fault Refusal :=
  match p with
  | .ok s => .next (s.respond .ok 0)
  | .stop cause s => .next { s.raiseFault cause i with response := none }

/-- The end of a timer event, which returns no status (41_softpwm.md rule R86). -/
def endEvent (i : Instr) (p : Proc) : Host.Outcome State Fault Refusal :=
  match p with
  | .ok s => .next s
  | .stop cause s => .next (s.raiseFault cause i)

/-- A host word that matches no row, or an EVT row: ILLEGAL_COMMAND with result 0, no state written and
no event (30_encoding.md rule R66). -/
def illegalCommand (s : State) : Host.Outcome State Fault Refusal := reject .illegalCommand s

end Sys2Proof.Machine
end

