-- ==== Sys2Proof/Machine/Mapper.lean ====
section
/-! DEFINITION. The update path of 40_channel_update.md: the duty-cycle mapper, ArmSoft, ChannelUpdate and
UpdateStatus. -/

namespace Sys2Proof.Machine

/-- `ArmSoft(c)`: arm the soft-PWM timer at NOW_NS unless it is running (41_softpwm.md rule R84). -/
def armSoft (c : Channel) (s : State) : State :=
  if (s.swt.get c).armed then s else s.armSwt c s.nowNs

/-- The duty formula on naturals: `LTH + raw · (P − LTH) / M`, multiplication before a division that
rounds toward zero (40_channel_update.md rule R76).  Log entry 16 for LTH > P. -/
def dutyNs (lth period maxb raw : Word) : Nat :=
  lth.toNat + raw.toNat * (period.toNat - lth.toNat) / maxb.toNat

/-- `duty[31:0]`, the value written to the port (40_channel_update.md rule R76). -/
def dutyWord (lth period maxb raw : Word) : Word := BitVec.ofNat 32 (dutyNs lth period maxb raw)

/-- The raw lookup `(LEVELS[c] present) ? MemRead(LEVELS[c], b) : b`; `none` is a read out of range
(40_channel_update.md rule R75, 20_memory.md rule R48). -/
def rawOf (c : Channel) (b : Word) (s : State) : Option Word :=
  match s.levelsOf c with
  | none => some b
  | some t => levelsRead t b

/-- ChannelUpdate of channel c with the brightness b that the hook and the clamp gave
(40_channel_update.md rule R77): the zero check is on b (rule R74), PWM_SET goes before PWM_ENABLE
(rule R79), a SoftwarePWM channel is armed and not driven (rule R73), an Unassigned one does nothing
(10_state.md rule R44). -/
def driveChannel (c : Channel) (b : Word) (s : State) : Proc :=
  match s.kind.get c with
  | .unassigned => .ok s
  | .hardwarePWM =>
    if b = 0 then .ok (s.emitAll [(c, .pwmDisable), (c, .notifyAfter b)])
    else
      match rawOf c b s with
      | none => .stop .invariantViolation s
      | some raw =>
        .ok (s.emitAll
          [(c, .pwmSet (dutyWord (s.lthOf c) s.periodNs (s.maxbOf c) raw) s.periodNs),
           (c, .pwmEnable), (c, .notifyAfter b)])
  | .softwarePWM => .ok ((armSoft c s).emitAll [(c, .notifyAfter b)])

/-- The brightness the mapper uses: NOTIFY[c] of BRIGHT[c], clamped to MAXB[c] and stored nowhere
(40_channel_update.md rules R77, R78).  Log entry 12. -/
def updateValue (c : Channel) (s : State) : Word :=
  clampTo (s.maxbOf c) (Config.notify c (s.brightOf c))

/-- `ChannelUpdate(c)` (40_channel_update.md rule R77). -/
def channelUpdate (c : Channel) (s : State) : Proc := driveChannel c (updateValue c s) s

/-- `UpdateStatus()`: ChannelUpdate of Red, Green, Blue, White in this order
(40_channel_update.md rule R80). -/
def updateStatus (s : State) : Proc :=
  (((channelUpdate .red s).andThen (channelUpdate .green)).andThen (channelUpdate .blue)).andThen
    (channelUpdate .white)

end Sys2Proof.Machine
end

