-- ==== Sys2Proof/Machine/Effects.lean ====
section
/-! DEFINITION. The effect engine (42_effects.md): ACT, DEACT, the internal procedure Deactivate and the
four ticks. -/

namespace Sys2Proof.Machine

/-- `Deactivate(k)`: clear the bit, restore the saved colour, refresh; FXT[k] stays as it is
(42_effects.md rule R92). -/
def deactivate (k : Effect) (s : State) : Proc :=
  updateStatus ({ s with activeMask := maskClear s.activeMask k }).restoreColor

/-- ACT's first act: deactivate the effect whose bit is set, if any (42_effects.md rule R91).  More than
one set bit breaks invariant I2 of 10_state.md rule R42.  Log entry 15. -/
def deactivateActive (s : State) : Proc :=
  if s.activeMask = 0 then .ok s
  else
    match activeEffect s.activeMask with
    | some a => deactivate a s
    | none => .stop .invariantViolation s

/-- `FIRST_DELAY[k]` (42_effects.md rule R101). -/
def firstDelay : Effect → Nat
  | .pulse => Config.pulseTickNs
  | .blink => Config.blinkTickNs
  | .heartbeat => Config.hbShortNs
  | .rainbow => Config.pulseTickNs

/-- The rest of ACT: snapshot, set the bit, reset STEP and PHASE, set PULSE_CH, arm FXT[k]
(42_effects.md rule R91). -/
def activate (k : Effect) (target : Option Channel) (s : State) : State :=
  ({ s.snapshot with
      activeMask := effectBit k, fxStep := 0, phase := 0, pulseCh := target }).armFxt k
    (s.deadlineIn (firstDelay k))

/-- The value ACT gives PULSE_CH: Pulse needs an assigned channel in CH, the other effects ignore CH;
`none` where Pulse's channel is bad (42_effects.md rule R91, 30_encoding.md rule R65). -/
def actTarget (k : Effect) (ch : BitVec 4) (s : State) : Option (Option Channel) :=
  match k with
  | .pulse =>
    match Channel.ofField ch with
    | none => none
    | some c => if s.kind.get c = .unassigned then none else some (some c)
  | .blink => some none
  | .heartbeat => some none
  | .rainbow => some none

/-- ACT (42_effects.md rule R91). -/
def execAct (ch ef : BitVec 4) (s : State) : Host.Outcome State Fault Refusal :=
  if s.lifecycle ≠ .running then reject .invalidState s
  else
    match Effect.ofField ef with
    | none => reject .invalidEffect s
    | some k =>
      match actTarget k ch s with
      | none => reject .invalidChannel s
      | some target =>
        endCommand (.act ch ef) ((deactivateActive s).andThen fun t => .ok (activate k target t))

/-- DEACT (42_effects.md rule R93). -/
def execDeact (ef : BitVec 4) (s : State) : Host.Outcome State Fault Refusal :=
  if s.lifecycle ≠ .running then reject .invalidState s
  else
    match Effect.ofField ef with
    | none => reject .invalidEffect s
    | some k =>
      endCommand (.deact ef) (if maskHas s.activeMask k then deactivate k s else .ok s)

/-- The frame of every tick: disarm, test the bit, body, refresh, re-arm (42_effects.md rule R95,
20_memory.md rule R55).  `d` is the interval the body returns. -/
def tick (k : Effect) (d : Nat) (body : State → Proc) (s : State) : Proc :=
  let s1 := s.disarmFxt k
  if maskHas s1.activeMask k then
    ((body s1).andThen updateStatus).andThen fun t => .ok (t.armFxt k (t.deadlineIn d))
  else .ok s1

/-- `Body_0`, Pulse (42_effects.md rule R96).  An invalid PULSE_CH breaks invariant I6 of 10_state.md rule
R42, a STEP above 74 is a table read out of range (20_memory.md rule R48).  Log entry 15. -/
def pulseBody (s : State) : Proc :=
  match s.pulseCh with
  | none => .stop .invariantViolation s
  | some c =>
    match pulseRead s.fxStep.toNat with
    | none => .stop .invariantViolation s
    | some v =>
      .ok { s.setBright c (clampTo (s.maxbOf c) v) with
        fxStep := if s.fxStep = 74 then 0 else s.fxStep + 1 }

/-- `Body_1`, Blink (42_effects.md rule R97).  Log entry 16 for STEP > 1. -/
def blinkBody (s : State) : Proc :=
  .ok { (if s.fxStep = 0 then s.darken else s.restoreColor) with fxStep := 1 - s.fxStep }

/-- `Body_2`, Heartbeat (42_effects.md rule R98). -/
def heartbeatBody (s : State) : Proc :=
  .ok { (if s.fxStep.toNat % 2 = 0 then s.darken else s.restoreColor) with
    fxStep := BitVec.ofNat 32 ((s.fxStep.toNat + 1) % 4) }

/-- The interval `Body_2` returns for the STEP it found (42_effects.md rule R98). -/
def heartbeatInterval (step : Word) : Nat := if step = 2 then Config.hbLongNs else Config.hbShortNs

/-- The moving channel of a Rainbow phase (42_effects.md rule R99). -/
def wheelMoving (p : Fin 6) : Channel :=
  match p with
  | 0 => .green
  | 1 => .red
  | 2 => .blue
  | 3 => .green
  | 4 => .red
  | 5 => .blue

/-- Whether the moving channel goes up (42_effects.md rule R99). -/
def wheelUp (p : Fin 6) : Bool :=
  match p with
  | 0 => true
  | 1 => false
  | 2 => true
  | 3 => false
  | 4 => true
  | 5 => false

/-- The channel held at MAXB (42_effects.md rule R99). -/
def wheelHigh (p : Fin 6) : Channel :=
  match p with
  | 0 => .red
  | 1 => .green
  | 2 => .green
  | 3 => .blue
  | 4 => .blue
  | 5 => .red

/-- The channel held at 0 (42_effects.md rule R99). -/
def wheelLow (p : Fin 6) : Channel :=
  match p with
  | 0 => .blue
  | 1 => .blue
  | 2 => .red
  | 3 => .red
  | 4 => .green
  | 5 => .green

/-- The next phase, `(PHASE + 1) mod 6` (42_effects.md rule R100). -/
def wheelNext (p : Fin 6) : Fin 6 :=
  match p with
  | 0 => 1
  | 1 => 2
  | 2 => 3
  | 3 => 4
  | 4 => 5
  | 5 => 0

/-- The value the moving channel shows at STEP j with maximum M (42_effects.md rule R100). -/
def wheelValue (up : Bool) (m j : Word) : Word :=
  if up then clampTo m j else m - clampTo m j

/-- `Body_3`, Rainbow (42_effects.md rule R100). -/
def rainbowBody (s : State) : Proc :=
  let m := wheelMoving s.phase
  let hi := wheelHigh s.phase
  let s1 := ((s.setBright m (wheelValue (wheelUp s.phase) (s.maxbOf m) s.fxStep)).setBright hi
    (s.maxbOf hi)).setBright (wheelLow s.phase) 0
  .ok (if (s.maxbOf m).toNat ≤ s.fxStep.toNat + 1 then
      { s1 with phase := wheelNext s.phase, fxStep := 0 }
    else { s1 with fxStep := s.fxStep + 1 })

/-- TICK.PULSE (42_effects.md rules R95, R96). -/
def execTickPulse (s : State) : Host.Outcome State Fault Refusal :=
  endEvent .tickPulse (tick .pulse Config.pulseTickNs pulseBody s)

/-- TICK.BLINK (42_effects.md rules R95, R97). -/
def execTickBlink (s : State) : Host.Outcome State Fault Refusal :=
  endEvent .tickBlink (tick .blink Config.blinkTickNs blinkBody s)

/-- TICK.HEARTBEAT (42_effects.md rules R95, R98). -/
def execTickHeartbeat (s : State) : Host.Outcome State Fault Refusal :=
  endEvent .tickHeartbeat (tick .heartbeat (heartbeatInterval s.fxStep) heartbeatBody s)

/-- TICK.RAINBOW (42_effects.md rules R95, R100). -/
def execTickRainbow (s : State) : Host.Outcome State Fault Refusal :=
  endEvent .tickRainbow (tick .rainbow Config.pulseTickNs rainbowBody s)

end Sys2Proof.Machine
end

