-- ==== Sys2Proof/Machine/Facade.lean ====
section
/-! DEFINITION. The host commands of the device facade (43_facade.md): SETB, UPDATE, SHUTDOWN, RDB, RDFX. -/

namespace Sys2Proof.Machine

/-- SETB (43_facade.md rule R109). -/
def execSetb (ch : BitVec 4) (v : Word) (s : State) : Host.Outcome State Fault Refusal :=
  if s.lifecycle ≠ .running then reject .invalidState s
  else
    match Channel.ofField ch with
    | none => reject .invalidChannel s
    | some c =>
      if s.kind.get c = .unassigned then reject .invalidChannel s
      else if s.maxbOf c < v then reject .invalidBrightness s
      else endCommand (.setb ch v) (channelUpdate c (s.setBright c v))

/-- UPDATE (43_facade.md rule R110). -/
def execUpdate (s : State) : Host.Outcome State Fault Refusal :=
  if s.lifecycle ≠ .running then reject .invalidState s
  else endCommand .update (updateStatus s)

/-- Drive channel c's output off by its kind, as INIT and SHUTDOWN do (43_facade.md rule R111,
70_reset_and_hazards.md rule R139). -/
def driveOff (c : Channel) (s : State) : State :=
  match s.kind.get c with
  | .unassigned => s
  | .hardwarePWM => s.emit c .pwmDisable
  | .softwarePWM => (s.setSwLevel c .low).emit c (.gpioWrite .low)

/-- SHUTDOWN's off-write of channel c, then `BRIGHT[c] <- 0` (43_facade.md rule R111). -/
def forceOff (c : Channel) (s : State) : State := (driveOff c s).setBright c 0

/-- SHUTDOWN's release of channel c (43_facade.md rule R111). -/
def releaseChannel (c : Channel) (s : State) : State :=
  match s.kind.get c with
  | .unassigned => s
  | .hardwarePWM => { s.emit c .release with acquired := s.acquired.set c false }
  | .softwarePWM => { s.emit c .release with acquired := s.acquired.set c false }

/-- SHUTDOWN (43_facade.md rule R111). -/
def execShutdown (s : State) : Host.Outcome State Fault Refusal :=
  if s.lifecycle ≠ .running then reject .invalidState s
  else
    let s1 := { s.disarmAll with activeMask := 0 }
    let s2 := allChannels.foldl (fun t c => forceOff c t) s1
    let s3 := allChannels.foldl (fun t c => releaseChannel c t) s2
    endCommand .shutdown (.ok { s3 with lifecycle := .shutdown })

/-- RDB (43_facade.md rule R112). -/
def execRdb (ch : BitVec 4) (s : State) : Host.Outcome State Fault Refusal :=
  match Channel.ofField ch with
  | none => reject .invalidChannel s
  | some c => .next (s.respond .ok (s.brightOf c))

/-- RDFX: `zext_32(ACTIVE_MASK)` (43_facade.md rule R113). -/
def execRdfx (s : State) : Host.Outcome State Fault Refusal :=
  .next (s.respond .ok (s.activeMask.setWidth 32))

end Sys2Proof.Machine
end

