-- ==== Sys2Proof/Machine/Init.lean ====
section
/-! DEFINITION. INIT (70_reset_and_hazards.md rules R138 to R143): validation, acquisition, commit. -/

namespace Sys2Proof.Machine

/-- V1: three or four entries (70_reset_and_hazards.md rule R139). -/
def countOk (cfg : ConfigRecord) : Bool :=
  decide (Config.minChannels ≤ cfg.length) && decide (cfg.length ≤ Config.maxChannels)

/-- V2: no two entries have the same color (70_reset_and_hazards.md rule R139). -/
def colorsDistinct (cfg : ConfigRecord) : Bool := decide (cfg.map Entry.color).Nodup

/-- V3: Red, Green and Blue have an entry (70_reset_and_hazards.md rule R139). -/
def requiredColors (cfg : ConfigRecord) : Bool :=
  (entryFor cfg .red).isSome && (entryFor cfg .green).isSome && (entryFor cfg .blue).isSome

/-- V4: every max_brightness is at least 1 (70_reset_and_hazards.md rule R139). -/
def maximaPositive (cfg : ConfigRecord) : Bool := cfg.all fun e => e.maxBrightness != 0

/-- `LEVELS[i] ≤ LEVELS[i+1]` all along a table (20_memory.md rule R47). -/
def nonDecreasing : List Word → Bool
  | [] => true
  | [_] => true
  | a :: b :: rest => decide (a ≤ b) && nonDecreasing (b :: rest)

/-- The shape of a levels table: MAXB + 1 entries, non-decreasing, each ≤ MAXB (20_memory.md rule R47). -/
def levelsShape (m : Word) (t : List Word) : Bool :=
  t.length == m.toNat + 1 && nonDecreasing t && t.all fun v => decide (v ≤ m)

/-- V5: every levels table present has its shape (70_reset_and_hazards.md rule R139). -/
def levelsOk (cfg : ConfigRecord) : Bool :=
  cfg.all fun e =>
    match e.levels with
    | none => true
    | some t => levelsShape e.maxBrightness t

/-- The period: hw_period_ns of the first HardwarePWM entry in list order, or DEFAULT_PERIOD_NS
(70_reset_and_hazards.md rule R140). -/
def configPeriod (cfg : ConfigRecord) : Word :=
  match cfg.find? (fun e => e.kind == .hardwarePWM) with
  | some e => e.hwPeriodNs
  | none => Config.defaultPeriodNs

/-- V6: the period is at least 1 (70_reset_and_hazards.md rule R139). -/
def periodOk (cfg : ConfigRecord) : Bool := configPeriod cfg != 0

/-- V7: no SoftwarePWM entry has P / max_brightness = 0 (70_reset_and_hazards.md rule R139). -/
def softLthPositive (cfg : ConfigRecord) : Bool :=
  cfg.all fun e => e.kind != .softwarePWM || configPeriod cfg / e.maxBrightness != 0

/-- All of V1 to V7 (70_reset_and_hazards.md rule R139). -/
def validConfig (cfg : ConfigRecord) : Bool :=
  countOk cfg && colorsDistinct cfg && requiredColors cfg && maximaPositive cfg && levelsOk cfg &&
    periodOk cfg && softLthPositive cfg

/-- `Acquire(cfg)`: ACQUIRE in list order while the oracle answers success; at the first failure the
acquired handles are released in reverse order (70_reset_and_hazards.md rule R141).  `got` is what is
acquired so far, latest first; the flag says whether all succeeded. -/
def acquire : List (Entry × Bool) → List Channel → State → Bool × State
  | [], _, s => (true, s)
  | (e, true) :: rest, got, s => acquire rest (e.color :: got) (s.emit e.color .acquire)
  | (_, false) :: _, got, s => (false, got.foldl (fun t c => t.emit c .release) s)

/-- INIT's commit up to `PULSE_CH <- invalid`, and the disarming of every timer
(70_reset_and_hazards.md rule R139).  The port registers of the handles it takes are UNKNOWN until written
(10_state.md rule R36), and nothing of a previous configuration survives (rule R143).  Log entries 13, 17. -/
def commitConfig (cfg : ConfigRecord) (s : State) : State :=
  let p := configPeriod cfg
  { s.disarmAll with
    kind := Bank.ofFn fun c =>
      match entryFor cfg c with
      | some e => kindOfEntry e.kind
      | none => .unassigned
    maxb := Bank.ofFn fun c =>
      match entryFor cfg c with
      | some e => e.maxBrightness
      | none => 0
    levels := Bank.ofFn fun c =>
      match entryFor cfg c with
      | some e => e.levels
      | none => none
    lth := Bank.ofFn fun c =>
      match entryFor cfg c with
      | some e => p / e.maxBrightness
      | none => 0
    acquired := Bank.ofFn fun c => (entryFor cfg c).isSome
    bright := Bank.all 0
    swLevel := Bank.all .low
    periodNs := p
    activeMask := 0
    fxStep := 0
    phase := 0
    savedColor := Bank.all 0
    pulseCh := none
    generator := Bank.all Generator.unknown
    pin := Bank.all none }

/-- INIT (70_reset_and_hazards.md rule R139). -/
def execInit (cfg : ConfigRecord) (s : State) : Host.Outcome State Fault Refusal :=
  if s.lifecycle = .running then reject .invalidState s
  else if validConfig cfg then
    match acquire (cfg.zip s.oracle.toList) [] s with
    | (false, t) => reject .resourceUnavailable t
    | (true, t) =>
      endCommand (.init cfg)
        (.ok { allChannels.foldl (fun u c => driveOff c u) (commitConfig cfg t) with
          lifecycle := .running })
  else reject .configurationError s

end Sys2Proof.Machine
end

