-- ==== Sys2Proof/Machine/SoftPwm.lean ====
section
/-! DEFINITION. The soft-PWM scheduler's event FIRE (41_softpwm.md). -/

namespace Sys2Proof.Machine

/-- `pulse_ns = brightness · lth_brightness_ns` (41_softpwm.md rule R87). -/
def pulseNs (c : Channel) (s : State) : Nat := (s.brightOf c).toNat * (s.lthOf c).toNat

/-- The interval after the flip to level l, or `none` where it is ≤ 0 (41_softpwm.md rule R86). -/
def toggleDelay (l : Level) (pulse period : Nat) : Option Nat :=
  match l with
  | .high => if pulse = 0 then none else some pulse
  | .low => if period ≤ pulse then none else some (period - pulse)

/-- Step 3 of a firing: flip the level, compute its interval, re-arm from NOW_NS, drive the pin
(41_softpwm.md rule R86). -/
def toggle (c : Channel) (s : State) : Proc :=
  let l := (s.swLevel.get c).flip
  let s1 := s.setSwLevel c l
  match toggleDelay l (pulseNs c s1) s1.periodNs.toNat with
  | none => .stop .intervalNonpositive s1
  | some d => .ok ((s1.armSwt c (s1.deadlineIn d)).emit c (.gpioWrite l))

/-- Steps 1 and 2 of a firing: drive the steady level and stop (41_softpwm.md rule R86). -/
def steady (c : Channel) (l : Level) (s : State) : Proc :=
  .ok ((s.setSwLevel c l).emit c (.gpioWrite l))

/-- One firing of the soft-PWM timer of channel c (41_softpwm.md rule R86). -/
def fireChannel (c : Channel) (s : State) : Proc :=
  let s1 := s.disarmSwt c
  if s1.maxbOf c ≤ s1.brightOf c then steady c .high s1
  else if s1.brightOf c = 0 then steady c .low s1
  else toggle c s1

/-- The body of FIRE: the operand must name a SoftwarePWM channel (41_softpwm.md rule R86); an armed timer
of any other slot breaks invariant I4 of 10_state.md rule R42.  Log entry 8. -/
def fireBody (ch : BitVec 4) (s : State) : Proc :=
  match Channel.ofField ch with
  | none => .stop .invariantViolation s
  | some c =>
    match s.kind.get c with
    | .softwarePWM => fireChannel c s
    | .hardwarePWM => .stop .invariantViolation s
    | .unassigned => .stop .invariantViolation s

/-- FIRE (41_softpwm.md rule R86). -/
def execFire (ch : BitVec 4) (s : State) : Host.Outcome State Fault Refusal :=
  endEvent (.fire ch) (fireBody ch s)

end Sys2Proof.Machine
end

