-- ==== Sys2Proof/Machine/Dispatch.lean ====
section
/-! DEFINITION. One arm per row of the opcode table (30_encoding.md rule R64). -/

namespace Sys2Proof.Machine

def exec (i : Instr) (s : State) : Host.Outcome State Fault Refusal :=
  match i with
  | .setb ch v => Sys2Proof.Machine.execSetb ch v s
  | .update => Sys2Proof.Machine.execUpdate s
  | .act ch ef => Sys2Proof.Machine.execAct ch ef s
  | .deact ef => Sys2Proof.Machine.execDeact ef s
  | .shutdown => Sys2Proof.Machine.execShutdown s
  | .rdb ch => Sys2Proof.Machine.execRdb ch s
  | .rdfx => Sys2Proof.Machine.execRdfx s
  | .init cfg => Sys2Proof.Machine.execInit cfg s
  | .fire ch => Sys2Proof.Machine.execFire ch s
  | .tickPulse => Sys2Proof.Machine.execTickPulse s
  | .tickBlink => Sys2Proof.Machine.execTickBlink s
  | .tickHeartbeat => Sys2Proof.Machine.execTickHeartbeat s
  | .tickRainbow => Sys2Proof.Machine.execTickRainbow s

end Sys2Proof.Machine
end

