-- ==== Sys2Proof/Machine/Agents.lean ====
section
/-! DEFINITION. The agents of 00_scope.md rule R7, each one atomic step: the host's turn, the timer
unit's, the clock's; the platform's reset; and the reference scheduler of 60_exceptions.md rule R127. -/

namespace Sys2Proof.Machine

/-- A step of any agent exists only while FAULT is NONE (10_state.md rule R34). -/
def unlessHalted (s : State) (o : Host.Outcome State Fault Refusal) : Host.Outcome State Fault Refusal :=
  match s.fault with
  | .none => o
  | .intervalNonpositive => .fault (.halted .intervalNonpositive)
  | .invariantViolation => .fault (.halted .invariantViolation)

/-- The host's turn: the block takes the item at the head of the ports and performs it; an EVT word from
the host is illegal (30_encoding.md rules R59, R66, R67).  While the ports hold no complete item there is
no command and nothing happens (log entry 18). -/
def hostTurn (s : State) : Host.Outcome State Fault Refusal :=
  match decode s.cmdPort s.cfgPort with
  | .incomplete => .next s
  | .illegal _ ws => illegalCommand { s with cmdPort := ws }
  | .instr i ws cs =>
    if i.isEvent then illegalCommand { s with cmdPort := ws, cfgPort := cs }
    else exec i { s with cmdPort := ws, cfgPort := cs }

/-- The timer unit's turn: it performs the event an EVT word names, and only for a due timer
(30_encoding.md rule R67, 41_softpwm.md rule R86, 42_effects.md rule R95); otherwise nothing happens
(log entry 2). -/
def eventTurn (w : Word) (s : State) : Host.Outcome State Fault Refusal :=
  match decode [w] [] with
  | .incomplete => .next s
  | .illegal _ _ => .next s
  | .instr i _ _ =>
    match eventTimer i with
    | none => .next s
    | some t => if s.due t then exec i s else .next s

/-- `ADVANCE(t')` is enabled when `t' > NOW_NS` and no timer T has `T.armed = 1 ∧ T.deadline +
TIMER_LATENCY_MAX_NS < t'` (10_state.md rule R33).  The sum is of natural numbers and does not wrap at 2^64,
as the firing interval of R33 and 60_exceptions.md rule R125 read (DESIGN CHOICE, log entry 27). -/
def canAdvance (t : Time) (s : State) : Bool :=
  decide (s.nowNs < t) &&
    allTimers.all fun id =>
      !(s.timer id).armed || decide (t.toNat ≤ (s.timer id).deadline.toNat + Config.timerLatencyMaxNs)

/-- The clock's turn (10_state.md rule R33); an ADVANCE that is not enabled does not happen (log entry 2). -/
def clockTurn (t : Time) (s : State) : Host.Outcome State Fault Refusal :=
  .next (if canAdvance t s then { s with nowNs := t } else s)

/-- The platform's reset: every register at its reset value and the log empty, whatever FAULT holds
(70_reset_and_hazards.md rule R135).  What the outside world has not delivered yet is not the block's and
stays (log entry 23). -/
def platformReset (s : State) : State :=
  { State.reset with cmdPort := s.cmdPort, cfgPort := s.cfgPort, oracle := s.oracle, agenda := s.agenda }

/-- Put the instruction of a table word where the next step takes it: a host command and its operand at
the head of the ports with the host's turn first; an event with the timer unit's turn first and its timer
due.  Log entry 3. -/
def placeItem (w0 w1 : Word) (s : State) : State :=
  match decode [w0, w1] [[]] with
  | .incomplete => { s with cmdPort := w0 :: s.cmdPort, agenda := .host s.oracle :: s.agenda }
  | .illegal _ _ => { s with cmdPort := w0 :: s.cmdPort, agenda := .host s.oracle :: s.agenda }
  | .instr i _ _ =>
    match eventTimer i with
    | some (.soft c) => { s.armSwt c s.nowNs with agenda := .event w0 :: s.agenda }
    | some (.effect k) => { s.armFxt k s.nowNs with agenda := .event w0 :: s.agenda }
    | none =>
      if i.isEvent then { s with agenda := .event w0 :: s.agenda }
      else
        { s with
          cmdPort := (encode i).words ++ s.cmdPort,
          cfgPort := (encode i).records ++ s.cfgPort,
          agenda := .host s.oracle :: s.agenda }

/-- The timer with the earlier deadline of a best-so-far and a later one in the tie-break order
(60_exceptions.md rule R127). -/
def earlier (s : State) (best : Option TimerId) (t : TimerId) : Option TimerId :=
  match best with
  | none => some t
  | some b => if (s.timer t).deadline < (s.timer b).deadline then some t else some b

/-- The timer of a list with the earliest deadline; ties go to the one that stands first. -/
def earliest (s : State) (ts : List TimerId) : Option TimerId := ts.foldl (earlier s) none

/-- The earlier of two times, either of which may be absent. -/
def earlierTime : Option Time → Option Time → Option Time
  | none, b => b
  | some a, none => some a
  | some a, some b => if b < a then some b else some a

/-- The reference scheduler of 60_exceptions.md rule R127: (1) the pending timer with the earliest
deadline, effect timers before soft-PWM timers, then lower index; (2) with none pending, the host's command
for the current instant, `nextCmd` being the time its next command is issued; (3) else ADVANCE to the
earlier of the next deadline and the next command's time.  `none` when nothing is left to do.  Log entry 25. -/
def referenceMove (answers : Answers) (nextCmd : Option Time) (s : State) : Option Action :=
  match earliest s (allTimers.filter s.due) with
  | some t => some (.event t.word)
  | none =>
    if nextCmd.any (fun t => decide (t ≤ s.nowNs)) then some (.host answers)
    else
      (earlierTime ((earliest s (allTimers.filter fun t => (s.timer t).armed)).map fun t =>
        (s.timer t).deadline) nextCmd).map Action.advance

end Sys2Proof.Machine
end

