-- ==== Sys2Proof/Machine/Step.lean ====
section
/-! DEFINITION. One step of the machine: the agent that the head of the agenda names takes its atomic step
(20_memory.md rules R52, R54; 60_exceptions.md rule R127). -/

namespace Sys2Proof.Machine

/-- One step.  With nothing proposed the block waits (log entries 1, 2); in a faulted state only reset is a
step (10_state.md rule R34). -/
def step (s : State) : Host.Outcome State Fault Refusal :=
  match s.agenda with
  | [] => unlessHalted s (.next s)
  | .reset :: rest => .next (platformReset { s with agenda := rest })
  | .host a :: rest => unlessHalted s (hostTurn { s with agenda := rest, oracle := a })
  | .event w :: rest => unlessHalted s (eventTurn w { s with agenda := rest })
  | .advance t :: rest => unlessHalted s (clockTurn t { s with agenda := rest })

/-- `s` with the instruction of the table bits `w` where the next step takes it (log entry 3). -/
def State.withFetchWord (s : State) (nbits w : Nat) : State :=
  placeItem (firstTableWord nbits w) (secondTableWord nbits w) s

end Sys2Proof.Machine
end

