-- ==== Sys2Proof/Machine/Registers.lean ====
section
/-! DEFINITION. The register list of 10_state.md rule R38: each register's reference number, its width, and
how it is read out of the state. -/

namespace Sys2Proof.Machine

/-- The registers of 10_state.md rule R38. -/
inductive Reg where
  | kind (c : Channel)
  | maxb (c : Channel)
  | bright (c : Channel)
  | lth (c : Channel)
  | swLevel (c : Channel)
  | swtArmed (c : Channel)
  | swtDeadline (c : Channel)
  | periodNs
  | activeMask
  | fxStep
  | phase
  | savedColor (c : Channel)
  | pulseCh
  | fxtArmed (k : Effect)
  | fxtDeadline (k : Effect)
  | lifecycle
  | fault
  | nowNs
  | levels (c : Channel)
  | acquired (c : Channel)
  | genEnabled (c : Channel)
  | genDutyNs (c : Channel)
  | genPeriodNs (c : Channel)
  | pin (c : Channel)
  deriving DecidableEq, Repr

/-- What a register holds: a number, the value UNKNOWN of 10_state.md rule R36, or a levels table. -/
inductive RegValue where
  | number (n : Nat)
  | unknown
  | table (t : Option (List Word))
  deriving DecidableEq, Repr

/-- The reference number of a register (10_state.md rule R38). -/
def Reg.id : Reg → Nat
  | .kind c => 0x00 + c.number
  | .maxb c => 0x04 + c.number
  | .bright c => 0x08 + c.number
  | .lth c => 0x0C + c.number
  | .swLevel c => 0x10 + c.number
  | .swtArmed c => 0x14 + c.number
  | .swtDeadline c => 0x18 + c.number
  | .periodNs => 0x1C
  | .activeMask => 0x1D
  | .fxStep => 0x1E
  | .phase => 0x1F
  | .savedColor c => 0x20 + c.number
  | .pulseCh => 0x24
  | .fxtArmed k => 0x28 + k.number
  | .fxtDeadline k => 0x2C + k.number
  | .lifecycle => 0x30
  | .fault => 0x31
  | .nowNs => 0x32
  | .levels c => 0x40 + c.number
  | .acquired c => 0x44 + c.number
  | .genEnabled c => 0x48 + c.number
  | .genDutyNs c => 0x48 + c.number
  | .genPeriodNs c => 0x48 + c.number
  | .pin c => 0x4C + c.number

/-- The width of a register in bits (10_state.md rules R17 to R38); a levels table has entries of this
width. -/
def Reg.width : Reg → Nat
  | .kind _ => 2
  | .maxb _ => 32
  | .bright _ => 32
  | .lth _ => 32
  | .swLevel _ => 1
  | .swtArmed _ => 1
  | .swtDeadline _ => 64
  | .periodNs => 32
  | .activeMask => 4
  | .fxStep => 32
  | .phase => 3
  | .savedColor _ => 32
  | .pulseCh => 3
  | .fxtArmed _ => 1
  | .fxtDeadline _ => 64
  | .lifecycle => 2
  | .fault => 2
  | .nowNs => 64
  | .levels _ => 32
  | .acquired _ => 1
  | .genEnabled _ => 1
  | .genDutyNs _ => 32
  | .genPeriodNs _ => 32
  | .pin _ => 1

/-- A flag as a register value. -/
def flagValue (b : Bool) : RegValue := .number b.toNat

/-- A port register as a register value, `none` being UNKNOWN (10_state.md rule R36). -/
def portFlagValue : Option Bool → RegValue
  | some b => flagValue b
  | none => .unknown

/-- A port word as a register value, `none` being UNKNOWN (10_state.md rule R36). -/
def portWordValue : Option Word → RegValue
  | some w => .number w.toNat
  | none => .unknown

/-- A pin as a register value, `none` being UNKNOWN (10_state.md rule R36). -/
def pinValue : Option Level → RegValue
  | some l => .number l.code
  | none => .unknown

/-- The value a register holds (10_state.md rule R38); an Unassigned channel's MAXB, BRIGHT, LTH and LEVELS
read as rule R43 says. -/
def State.reg (s : State) : Reg → RegValue
  | .kind c => .number (s.kind.get c).code
  | .maxb c => .number (s.maxbOf c).toNat
  | .bright c => .number (s.brightOf c).toNat
  | .lth c => .number (s.lthOf c).toNat
  | .swLevel c => .number (s.swLevel.get c).code
  | .swtArmed c => flagValue (s.swt.get c).armed
  | .swtDeadline c => .number (s.swt.get c).deadline.toNat
  | .periodNs => .number s.periodNs.toNat
  | .activeMask => .number s.activeMask.toNat
  | .fxStep => .number s.fxStep.toNat
  | .phase => .number s.phase.val
  | .savedColor c => .number (s.savedColor.get c).toNat
  | .pulseCh => .number (pulseChCode s.pulseCh)
  | .fxtArmed k => flagValue (s.fxt.get k).armed
  | .fxtDeadline k => .number (s.fxt.get k).deadline.toNat
  | .lifecycle => .number s.lifecycle.code
  | .fault => .number s.fault.code
  | .nowNs => .number s.nowNs.toNat
  | .levels c => .table (s.levelsOf c)
  | .acquired c => flagValue (s.acquired.get c)
  | .genEnabled c => portFlagValue (s.generator.get c).enabled
  | .genDutyNs c => portWordValue (s.generator.get c).dutyNs
  | .genPeriodNs c => portWordValue (s.generator.get c).periodNs
  | .pin c => pinValue (s.pin.get c)

end Sys2Proof.Machine
end

