-- ==== Sys2Proof/Safety.lean ====
section
/-! DEFINITION. What counts as a good state, and the vocabulary the claims are stated in. -/

namespace Sys2Proof.Machine

/-- I1 of 10_state.md rule R42: `BRIGHT[c] ≤ MAXB[c]` and `SAVED_COLOR[c] ≤ MAXB[c]`. -/
def State.BrightBounded (s : State) : Prop :=
  ∀ c, s.bright.get c ≤ s.maxb.get c ∧ s.savedColor.get c ≤ s.maxb.get c

/-- I2 of 10_state.md rule R42: ACTIVE_MASK has at most one bit set. -/
def State.OneEffect (s : State) : Prop := s.activeMask = 0 ∨ ∃ k, s.activeMask = effectBit k

/-- I3 of 10_state.md rule R42: an Unassigned channel holds zeros and its timer is disarmed. -/
def State.UnassignedZero (s : State) : Prop :=
  ∀ c, s.kind.get c = .unassigned →
    s.maxb.get c = 0 ∧ s.bright.get c = 0 ∧ s.lth.get c = 0 ∧ (s.swt.get c).armed = false

/-- I4 of 10_state.md rule R42: an armed soft-PWM timer belongs to a SoftwarePWM channel of a running
block. -/
def State.SoftTimersLive (s : State) : Prop :=
  ∀ c, (s.swt.get c).armed = true → s.kind.get c = .softwarePWM ∧ s.lifecycle = .running

/-- I5 of 10_state.md rule R42: outside RUNNING every timer is disarmed and no effect is active. -/
def State.QuietUnlessRunning (s : State) : Prop :=
  s.lifecycle ≠ .running → (∀ id, (s.timer id).armed = false) ∧ s.activeMask = 0

/-- I6 of 10_state.md rule R42: while Pulse is active PULSE_CH is valid and names an assigned channel. -/
def State.PulseHasTarget (s : State) : Prop :=
  maskHas s.activeMask .pulse = true → ∃ c, s.pulseCh = some c ∧ s.kind.get c ≠ .unassigned

/-- The invariants I1 to I6 of 10_state.md rule R42. -/
structure State.Invariants (s : State) : Prop where
  brightBounded      : s.BrightBounded
  oneEffect          : s.OneEffect
  unassignedZero     : s.UnassignedZero
  softTimersLive     : s.SoftTimersLive
  quietUnlessRunning : s.QuietUnlessRunning
  pulseHasTarget     : s.PulseHasTarget

/-- The bound of STEP while effect k is active (10_state.md rule R26). -/
def State.stepLimit (s : State) : Effect → Nat
  | .pulse => Config.pulseLen
  | .blink => 2
  | .heartbeat => 4
  | .rainbow => (s.maxb.get (wheelMoving s.phase)).toNat

/-- STEP is in the range 10_state.md rule R26 gives it while an effect is active. -/
def State.StepInRange (s : State) : Prop :=
  ∀ k, s.activeMask = effectBit k → s.fxStep.toNat < s.stepLimit k

/-- What a successful INIT leaves in the configuration registers and nothing changes until the next one
(70_reset_and_hazards.md rule R139; 10_state.md rules R19, R21, R22, R44; 20_memory.md rule R47). -/
structure State.Configured (s : State) : Prop where
  colours   : s.kind.red ≠ .unassigned ∧ s.kind.green ≠ .unassigned ∧ s.kind.blue ≠ .unassigned
  period    : s.periodNs ≠ 0
  maxima    : ∀ c, s.kind.get c ≠ .unassigned → s.maxb.get c ≠ 0
  shortest  : ∀ c, s.kind.get c ≠ .unassigned → s.lth.get c = s.periodNs / s.maxb.get c
  softPulse : ∀ c, s.kind.get c = .softwarePWM → s.lth.get c ≠ 0
  tables    : ∀ c t, s.levels.get c = some t →
    s.kind.get c ≠ .unassigned ∧ levelsShape (s.maxb.get c) t = true

/-- A good state: FAULT is NONE, the invariants of 10_state.md rule R42 hold, STEP is in range, and the
configuration is one INIT accepts, or none at all before the first INIT. -/
structure State.Good (s : State) : Prop where
  noFault      : s.fault = .none
  invariants   : s.Invariants
  stepInRange  : s.StepInRange
  configured   : s.lifecycle ≠ .unconfigured → s.Configured
  unconfigured : s.lifecycle = .unconfigured → ∀ c, s.kind.get c = .unassigned

/-- The block is right after a reset, whatever the outside world has put on its ports or proposes
(70_reset_and_hazards.md rule R135). -/
def State.AfterReset (s : State) : Prop := platformReset s = s

/-- What the outside world supplies: the ports, the oracle's answers and the proposed moves. -/
def State.inputs (s : State) : List Word × List ConfigRecord × Answers × List Action :=
  (s.cmdPort, s.cfgPort, s.oracle, s.agenda)

/-- Every levels table is long enough for a read at MAXB (20_memory.md rules R47, R48). -/
def State.TablesCover (s : State) : Prop :=
  ∀ c t, s.levelsOf c = some t → (s.maxbOf c).toNat < t.length

/-- The raw value of brightness b: the entry of the levels table, or b itself (40_channel_update.md rule
R75). -/
def State.rawValue (s : State) (c : Channel) (b : Word) : Word :=
  match s.levelsOf c with
  | none => b
  | some t => t.getD b.toNat 0

/-- The events one ChannelUpdate of channel c emits when the mapper uses brightness b
(40_channel_update.md rules R77, R79). -/
def State.channelEvents (s : State) (c : Channel) (b : Word) : List (Channel × PortEvent) :=
  match s.kind.get c with
  | .unassigned => []
  | .softwarePWM => [(c, .notifyAfter b)]
  | .hardwarePWM =>
    if b = 0 then [(c, .pwmDisable), (c, .notifyAfter 0)]
    else
      [(c, .pwmSet (BitVec.ofNat 32
          ((s.lthOf c).toNat +
            (s.rawValue c b).toNat * (s.periodNs.toNat - (s.lthOf c).toNat) / (s.maxbOf c).toNat))
          s.periodNs),
       (c, .pwmEnable), (c, .notifyAfter b)]

/-- The events of one full refresh, grouped by channel in index order (40_channel_update.md rule R80). -/
def State.refreshEvents (s : State) : List (Channel × PortEvent) :=
  allChannels.flatMap fun c => s.channelEvents c (updateValue c s)

/-- Events as log entries stamped with NOW_NS (10_state.md rule R37). -/
def State.stamped (s : State) (es : List (Channel × PortEvent)) : List LogEntry :=
  es.map fun ce => { time := s.nowNs, channel := ce.1, event := ce.2 }

/-- The events of a list that are channel c's, in their order (10_state.md rule R37). -/
def portEvents (c : Channel) (es : List (Channel × PortEvent)) : List PortEvent :=
  (es.filter fun ce => ce.1 == c).map Prod.snd

/-- From `s` to `t` the log has grown by the events `es`, stamped with NOW_NS, and every channel's generator
and pin are what channel c's events of `es` make of them, one after another (10_state.md rules R36, R37). -/
structure State.Emitted (s : State) (es : List (Channel × PortEvent)) (t : State) : Prop where
  log        : t.log = s.log ++ s.stamped es
  generators : ∀ c, t.generator.get c = (portEvents c es).foldl generatorAfter (s.generator.get c)
  pins       : ∀ c, t.pin.get c = (portEvents c es).foldl pinAfter (s.pin.get c)

/-- Every port register UNKNOWN (10_state.md rule R36). -/
def State.withUnknownPorts (s : State) : State :=
  { s with generator := Bank.all Generator.unknown, pin := Bank.all none }

/-- SWT[c] after ArmSoft at NOW_NS, for a SoftwarePWM channel; other channels' timers stay
(41_softpwm.md rule R84). -/
def State.softTimerAfter (s : State) (c : Channel) : Timer :=
  if s.kind.get c = .softwarePWM ∧ (s.swt.get c).armed = false then
    { armed := true, deadline := s.nowNs }
  else s.swt.get c

/-- Performing instructions one after another, each on the state the one before it left
(20_memory.md rule R54). -/
def execAll : List Instr → State → Host.Outcome State Fault Refusal
  | [], s => .next s
  | i :: is, s =>
    match exec i s with
    | .next t => execAll is t
    | .fault f => .fault f
    | .refused r => .refused r

/-- The tick event of an effect (42_effects.md rule R95). -/
def tickOf : Effect → Instr
  | .pulse => .tickPulse
  | .blink => .tickBlink
  | .heartbeat => .tickHeartbeat
  | .rainbow => .tickRainbow

/-- The admission table of 60_exceptions.md rule R120. -/
def admits (l : Lifecycle) : Instr → Bool
  | .setb _ _ => l == .running
  | .update => l == .running
  | .act _ _ => l == .running
  | .deact _ => l == .running
  | .shutdown => l == .running
  | .rdb _ => true
  | .rdfx => true
  | .init _ => l != .running
  | .fire _ => true
  | .tickPulse => true
  | .tickBlink => true
  | .tickHeartbeat => true
  | .tickRainbow => true

/-- The off-writes of INIT and SHUTDOWN for channels of the given kinds, in channel order
(43_facade.md rule R111, 70_reset_and_hazards.md rule R139). -/
def offWrites (kind : Bank Kind) : List (Channel × PortEvent) :=
  allChannels.flatMap fun c =>
    match kind.get c with
    | .unassigned => []
    | .hardwarePWM => [(c, .pwmDisable)]
    | .softwarePWM => [(c, .gpioWrite .low)]

/-- SHUTDOWN's releases for channels of the given kinds, in channel order (43_facade.md rule R111). -/
def releases (kind : Bank Kind) : List (Channel × PortEvent) :=
  allChannels.flatMap fun c => if kind.get c = .unassigned then [] else [(c, .release)]

/-- The place of a timer in the order in which ties are broken: effect timers before soft-PWM timers, then
the lower index (60_exceptions.md rule R127). -/
def TimerId.rank : TimerId → Nat
  | .effect k => k.number
  | .soft c => 4 + c.number

/-- The port registers of channel c (10_state.md rule R36). -/
def portRegs (c : Channel) : List Reg := [.genEnabled c, .genDutyNs c, .genPeriodNs c, .pin c]

/-- The generator registers of every channel (10_state.md rule R36). -/
def allGenRegs : List Reg :=
  allChannels.flatMap fun c => [.genEnabled c, .genDutyNs c, .genPeriodNs c]

/-- The port registers of every channel (10_state.md rule R36). -/
def allPortRegs : List Reg := allChannels.flatMap portRegs

/-- The soft-PWM timer registers of every channel (10_state.md rule R24). -/
def allSwtRegs : List Reg := allChannels.flatMap fun c => [.swtArmed c, .swtDeadline c]

/-- The brightness registers of every channel (10_state.md rule R20). -/
def allBrightRegs : List Reg := allChannels.map .bright

/-- No armed timer is overdue by more than TIMER_LATENCY_MAX_NS (60_exceptions.md rule R125). -/
def State.Punctual (s : State) : Prop :=
  ∀ id, (s.timer id).armed = true →
    s.nowNs.toNat ≤ (s.timer id).deadline.toNat + Config.timerLatencyMaxNs

/-- `run` is a run of the machine: every state is a step's next state (20_memory.md rule R54). -/
def IsRun (run : Nat → State) : Prop := ∀ n, step (run n) = .next (run (n + 1))

/-- The next step of this state is the timer unit's, with the event of timer id. -/
def State.serves (s : State) (id : TimerId) : Prop := ∃ rest, s.agenda = .event id.word :: rest

/-- Weak fairness of the timer unit: a timer that stays due is served (60_exceptions.md rule R125).
Log entry 22. -/
def WeaklyFair (run : Nat → State) : Prop :=
  ∀ n id, (∀ m, n ≤ m → (run m).due id = true) → ∃ m, n ≤ m ∧ (run m).serves id

end Sys2Proof.Machine
end

