-- ==== Sys2Proof/Certificates/Slice0/Obligations.lean ====
section
/-! DEFINITION. The statements for the provers, from the numbered rules of spec/. -/

open Sys2Proof Sys2Proof.Machine

/-! ## Encoding -/

/-- Every instruction, with every value of every operand, decodes back from its encoding, and what stands
behind it on the ports is left there (30_encoding.md R59, R60, R64, R69). -/
def Obligations.DecodeOfEncode : Prop :=
  ∀ (i : Instr) (ws : List Word) (cs : List ConfigRecord),
    decode ((encode i).words ++ ws) ((encode i).records ++ cs) = .instr i ws cs

/-- What the decoder takes off the ports is exactly the encoding of the instruction it answers: no bit of
a command word is ignored (30_encoding.md R60, R64, R65). -/
def Obligations.DecodingLosesNothing : Prop :=
  ∀ (ws ws' : List Word) (cs cs' : List ConfigRecord) (i : Instr),
    decode ws cs = .instr i ws' cs' → ws = (encode i).words ++ ws' ∧ cs = (encode i).records ++ cs'

/-- No word belongs to two rows of the opcode table (30_encoding.md R64). -/
def Obligations.OpcodeRowsDoNotOverlap : Prop :=
  ∀ (w : Word) (r r' : OpcodeRow), r ∈ opcodeRows → r' ∈ opcodeRows →
    r.holds w = true → r'.holds w = true → r = r'

/-- Words written out from 30_encoding.md R64, one for each row of the table. -/
def Obligations.KnownWordsDecode : Prop :=
  decode [0x01300000, 0x00000064] [] = .instr (.setb 3 100) [] [] ∧
  decode [0x02000000] [] = .instr .update [] [] ∧
  decode [0x03300000] [] = .instr (.act 3 0) [] [] ∧
  decode [0x04020000] [] = .instr (.deact 2) [] [] ∧
  decode [0x05000000] [] = .instr .shutdown [] [] ∧
  decode [0x06100000] [] = .instr (.rdb 1) [] [] ∧
  decode [0x07000000] [] = .instr .rdfx [] [] ∧
  decode [0x10000000] [[]] = .instr (.init []) [] [] ∧
  decode [0x80300000] [] = .instr (.fire 3) [] [] ∧
  decode [0x81000000] [] = .instr .tickPulse [] [] ∧
  decode [0x81010000] [] = .instr .tickBlink [] [] ∧
  decode [0x81020000] [] = .instr .tickHeartbeat [] [] ∧
  decode [0x81030000] [] = .instr .tickRainbow [] []

/-- The pseudo-instructions and the example encodings of 30_encoding.md R72. -/
def Obligations.PseudoInstructionsExpand : Prop :=
  (∀ ch : AsmChannel,
    (AsmLine.off ch).command = (AsmLine.setb ch 0).command ∧
    (AsmLine.pulse ch).command = (AsmLine.act .pulse (some ch)).command ∧
    (AsmLine.off ch).command.map encode = some ⟨[0x01000000 ||| ch.field.setWidth 32 <<< 20, 0], []⟩ ∧
    (AsmLine.pulse ch).command.map encode = some ⟨[0x03000000 ||| ch.field.setWidth 32 <<< 20], []⟩) ∧
  AsmLine.blink.command = (AsmLine.act .blink none).command ∧
  AsmLine.heartbeat.command = (AsmLine.act .heartbeat none).command ∧
  AsmLine.rainbow.command = (AsmLine.act .rainbow none).command ∧
  AsmLine.blink.command.map encode = some ⟨[0x03010000], []⟩ ∧
  AsmLine.heartbeat.command.map encode = some ⟨[0x03020000], []⟩ ∧
  AsmLine.rainbow.command.map encode = some ⟨[0x03030000], []⟩ ∧
  (AsmLine.setb .w 100).command.map encode = some ⟨[0x01300000, 0x00000064], []⟩ ∧
  (AsmLine.act .pulse (some .w)).command.map encode = some ⟨[0x03300000], []⟩ ∧
  (AsmLine.deact .heartbeat).command.map encode = some ⟨[0x04020000], []⟩ ∧
  AsmLine.update.command.map encode = some ⟨[0x02000000], []⟩ ∧
  AsmLine.shutdown.command.map encode = some ⟨[0x05000000], []⟩ ∧
  (AsmLine.rdb .g).command.map encode = some ⟨[0x06100000], []⟩ ∧
  AsmLine.rdfx.command.map encode = some ⟨[0x07000000], []⟩ ∧
  ∀ cfg : ConfigRecord, (AsmLine.init cfg).command.map encode = some ⟨[0x10000000], [cfg]⟩

/-- A transport in bytes carries each word least significant byte first, and decodes as the words do
(20_memory.md R50). -/
def Obligations.BytesAreLittleEndian : Prop :=
  (∀ (w : Word) (j : Nat), j < 4 →
    (bytesOfWord w)[j]?.map BitVec.toNat = some (w.toNat / 2 ^ (8 * j) % 256)) ∧
  ∀ (ws : List Word) (cs : List ConfigRecord), decodeBytes (ws.flatMap bytesOfWord) cs = decode ws cs

/-! ## The agents and the step -/

/-- The host's turn runs the command its ports hold, past the words and the record it takes
(20_memory.md R52, 30_encoding.md R59). -/
def Obligations.StepRunsHostCommand : Prop :=
  ∀ (s : State) (a : Answers) (rest : List Action) (i : Instr) (ws : List Word) (cs : List ConfigRecord),
    s.fault = .none → s.agenda = .host a :: rest → decode s.cmdPort s.cfgPort = .instr i ws cs →
    i.isEvent = false →
    step s = exec i { s with agenda := rest, oracle := a, cmdPort := ws, cfgPort := cs }

/-- The timer unit's turn runs the event of a due timer (30_encoding.md R67, 10_state.md R31). -/
def Obligations.StepRunsDueEvent : Prop :=
  ∀ (s : State) (w : Word) (rest : List Action) (i : Instr) (id : TimerId),
    s.fault = .none → s.agenda = .event w :: rest → decode [w] [] = .instr i [] [] →
    eventTimer i = some id → (s.timer id).armed = true → (s.timer id).deadline ≤ s.nowNs →
    step s = exec i { s with agenda := rest }

/-- 30_encoding.md R66: a host word that matches no host row answers ILLEGAL_COMMAND with result 0, writes
no state, emits nothing and consumes nothing but itself; an operand word is consumed by SETB and by
nothing else; and every word is one row or none. -/
def Obligations.IllegalHostWord : Prop :=
  (∀ (s : State) (a : Answers) (rest : List Action) (w : Word) (ws : List Word),
    s.fault = .none → s.agenda = .host a :: rest → s.cmdPort = w :: ws →
    (∀ r ∈ hostRows, r.holds w = false) →
    step s = .next { s with
      agenda := rest, oracle := a, cmdPort := ws,
      response := some { status := .illegalCommand, result := 0 } }) ∧
  (∀ (w v : Word) (ws ws' : List Word) (cs cs' : List ConfigRecord) (i : Instr),
    decode (w :: v :: ws) cs = .instr i ws' cs' →
    ((∃ ch, i = .setb ch v) ∧ ws' = ws) ∨ ((∀ ch u, i ≠ .setb ch u) ∧ ws' = v :: ws)) ∧
  ∀ w : Word, (∃ r ∈ opcodeRows, r.holds w = true ∧ rowOf w = some r.op) ∨
    ((∀ r ∈ opcodeRows, r.holds w = false) ∧ rowOf w = none)

/-- An EVT word from the host performs no event, and the timer unit performs one only for a due timer
(30_encoding.md R67).  That a move of the timer unit for no due timer is a step that changes nothing is the
model's choice (log entry 2). -/
def Obligations.OnlyTheTimerUnitRaisesEvents : Prop :=
  (∀ (s : State) (a : Answers) (rest : List Action) (w : Word) (ws : List Word),
    s.fault = .none → s.agenda = .host a :: rest → s.cmdPort = w :: ws →
    (∃ r ∈ eventRows, r.holds w = true) →
    step s = .next { s with
      agenda := rest, oracle := a, cmdPort := ws,
      response := some { status := .illegalCommand, result := 0 } }) ∧
  ∀ (s : State) (w : Word) (rest : List Action),
    s.fault = .none → s.agenda = .event w :: rest →
    (∀ id : TimerId, (s.timer id).armed = true → (s.timer id).deadline ≤ s.nowNs → id.word ≠ w) →
    step s = .next { s with agenda := rest }

/-- `ADVANCE(t')` moves NOW_NS to t' exactly when t' is later and no armed timer would be passed by more
than the latency (10_state.md R33).  That the guard's sum does not wrap at 2^64 (log entry 27) and that an
ADVANCE that is not enabled changes nothing (log entry 2) are the model's choices. -/
def Obligations.AdvanceMovesTheClock : Prop :=
  ∀ (s : State) (t' : Time) (rest : List Action),
    s.fault = .none → s.agenda = .advance t' :: rest →
    ((s.nowNs < t' ∧ ∀ id : TimerId, (s.timer id).armed = true →
        t'.toNat ≤ (s.timer id).deadline.toNat + Config.timerLatencyMaxNs) →
      step s = .next { s with agenda := rest, nowNs := t' }) ∧
    (¬ (s.nowNs < t' ∧ ∀ id : TimerId, (s.timer id).armed = true →
        t'.toNat ≤ (s.timer id).deadline.toNat + Config.timerLatencyMaxNs) →
      step s = .next { s with agenda := rest })

/-- Only the clock moves NOW_NS, and only reset sets it back: host commands and timer events take no time
(10_state.md R33, 60_exceptions.md R131). -/
def Obligations.TimeMovesOnlyByAdvance : Prop :=
  ∀ s t : State, step s = .next t → t.nowNs ≠ s.nowNs →
    (∃ (t' : Time) (rest : List Action), s.agenda = .advance t' :: rest ∧ s.nowNs < t' ∧ t.nowNs = t') ∨
    (∃ rest : List Action, s.agenda = .reset :: rest ∧ t.nowNs = 0)

/-- No step leaves a pending timer that it did not re-arm overdue by more than TIMER_LATENCY_MAX_NS
(10_state.md R33, 60_exceptions.md R125), the sum being one of naturals (the model's choice, log entry 27). -/
def Obligations.ClockNeverOverrunsADeadline : Prop :=
  ∀ (s t : State) (id : TimerId), s.Punctual → step s = .next t →
    t.timer id = s.timer id → (t.timer id).armed = true →
    t.nowNs.toNat ≤ (t.timer id).deadline.toNat + Config.timerLatencyMaxNs

/-- 10_state.md R34: FAULT's codes; once it is not NONE no agent has a step, and reset clears it. -/
def Obligations.FaultStopsTheBlock : Prop :=
  FaultCause.none.code = 0 ∧ FaultCause.intervalNonpositive.code = 1 ∧
  FaultCause.invariantViolation.code = 2 ∧
  (∀ s : State, s.fault ≠ .none → (∀ rest : List Action, s.agenda ≠ .reset :: rest) →
    step s = .fault (.halted s.fault)) ∧
  ∀ (s : State) (rest : List Action), s.agenda = .reset :: rest →
    ∃ t : State, step s = .next t ∧ t.fault = .none

/-- 10_state.md R41, register by register as R38 lists them. -/
def Obligations.ResetValues : Prop :=
  (∀ c : Channel,
    State.reset.reg (.kind c) = .number 0 ∧ State.reset.reg (.maxb c) = .number 0 ∧
    State.reset.reg (.bright c) = .number 0 ∧ State.reset.reg (.lth c) = .number 0 ∧
    State.reset.reg (.levels c) = .table none ∧ State.reset.reg (.swLevel c) = .number 0 ∧
    State.reset.reg (.swtArmed c) = .number 0 ∧ State.reset.reg (.swtDeadline c) = .number 0 ∧
    State.reset.reg (.savedColor c) = .number 0 ∧ State.reset.reg (.acquired c) = .number 0 ∧
    State.reset.reg (.genEnabled c) = .unknown ∧ State.reset.reg (.genDutyNs c) = .unknown ∧
    State.reset.reg (.genPeriodNs c) = .unknown ∧ State.reset.reg (.pin c) = .unknown) ∧
  (∀ k : Effect,
    State.reset.reg (.fxtArmed k) = .number 0 ∧ State.reset.reg (.fxtDeadline k) = .number 0) ∧
  State.reset.reg .periodNs = .number 0 ∧ State.reset.reg .activeMask = .number 0 ∧
  State.reset.reg .fxStep = .number 0 ∧ State.reset.reg .phase = .number 0 ∧
  State.reset.reg .pulseCh = .number 0 ∧ State.reset.reg .lifecycle = .number 0 ∧
  State.reset.reg .fault = .number 0 ∧ State.reset.reg .nowNs = .number 0 ∧ State.reset.log = []

/-- 70_reset_and_hazards.md R135: a reset at any time, from any state, sets every register to its reset
value and empties the log; then INIT, RDB and RDFX alone are admitted, RDB and RDFX read 0, and no timer
is due. -/
def Obligations.ResetStartsAgain : Prop :=
  ∀ (s : State) (rest : List Action), s.agenda = .reset :: rest →
    ∃ t : State, step s = .next t ∧ (∀ r : Reg, t.reg r = State.reset.reg r) ∧ t.log = [] ∧
      (∀ c : Channel,
        exec (.rdb c.field) t = .next { t with response := some { status := .ok, result := 0 } }) ∧
      exec .rdfx t = .next { t with response := some { status := .ok, result := 0 } } ∧
      (∀ i : Instr, i.isEvent = false → (∀ cfg, i ≠ .init cfg) → (∀ ch, i ≠ .rdb ch) → i ≠ .rdfx →
        exec i t = .next { t with response := some { status := .invalidState, result := 0 } }) ∧
      (∀ (cfg : ConfigRecord) (u : State) (r : Response),
        exec (.init cfg) t = .next u → u.response = some r → r.status ≠ .invalidState) ∧
      ∀ id : TimerId, (t.timer id).armed = false

/-- In every state without a fault every step has a next state: no refusal, and no stop on ordinary data
(60_exceptions.md R118, R121).  That a move that is not enabled, an empty agenda and an incomplete item
answer a next state (log entries 2 and 18), and that raising a fault is a next state itself (log entry 4),
are the model's choices. -/
def Obligations.StepAlwaysAnswers : Prop :=
  ∀ s : State, s.fault = .none → ∃ t : State, step s = .next t

/-- With nothing proposed the block waits (the model's choice, log entry 2; 20_memory.md R58 "it waits for
INIT"). -/
def Obligations.IdleBlockWaits : Prop :=
  ∀ s : State, s.fault = .none → s.agenda = [] → step s = .next s

/-! ## Invariants -/

/-- 10_state.md R42: reset establishes I1 to I6 and every step of every agent preserves them while FAULT
stays NONE. -/
def Obligations.InvariantsKept : Prop :=
  State.reset.Invariants ∧
  ∀ s t : State, s.fault = .none → s.Invariants → step s = .next t → t.fault = .none → t.Invariants

/-- Every step keeps a good state good: FAULT stays NONE, the invariants of 10_state.md R42 hold, STEP
stays in the range of R26, and the configuration stays one INIT accepts. -/
def Obligations.GoodStatesStayGood : Prop :=
  ∀ s t : State, s.Good → step s = .next t → t.Good

/-- The state after reset is good. -/
def Obligations.ResetIsGood : Prop := State.reset.Good

/-- From reset no run ever faults, whatever the host puts on its ports and in whatever order the agents
step: both causes of 60_exceptions.md R121 are unreachable.  Deadlines wrap at 2^64 and raise nothing, the
first of the two readings 10_state.md R33 offers, and a move that is not enabled answers a next state (the
model's choices, log entries 7 and 2). -/
def Obligations.NoFaultFromReset : Prop :=
  ∀ s : State, s.AfterReset → ∀ n : Nat, ∃ t : State, Sys2Proof.core.run n s = .next t ∧ t.fault = .none

/-! ## Errors -/

/-- 60_exceptions.md R119: a command that answers another status than OK has result 0 and leaves the state
as it was but for the response, an illegal word too; only an INIT that answers RESOURCE_UNAVAILABLE has
logged events: the ACQUIREs of the entries before entry j of its record, the first one the oracle refuses,
and their RELEASEs. -/
def Obligations.FailedCommandWritesNothing : Prop :=
  (∀ (i : Instr) (s t : State) (r : Response),
    i.isEvent = false → exec i s = .next t → t.response = some r → r.status ≠ .ok →
    r.result = 0 ∧
    (t = { s with response := some r } ∨
      (r.status = .resourceUnavailable ∧ ∃ (cfg : ConfigRecord) (j : Nat), i = .init cfg ∧ j < cfg.length ∧
        (∀ b ∈ s.oracle.toList.take j, b = true) ∧ s.oracle.toList[j]? = some false ∧
        t = { s with
          response := some r,
          log := s.log ++ s.stamped ((cfg.take j).map (fun e => (e.color, .acquire)) ++
            (cfg.take j).reverse.map (fun e => (e.color, .release))) }))) ∧
  ∀ s : State, illegalCommand s =
    .next { s with response := some { status := .illegalCommand, result := 0 } }

/-- 60_exceptions.md R120: which commands each LIFECYCLE value admits; a command that is not admitted
answers INVALID_STATE, an admitted one never does, and outside RUNNING no timer is due. -/
def Obligations.AdmissionByLifecycle : Prop :=
  (∀ (i : Instr) (s : State), i.isEvent = false →
    admits s.lifecycle i = false →
      exec i s = .next { s with response := some { status := .invalidState, result := 0 } }) ∧
  (∀ (i : Instr) (s t : State) (r : Response), i.isEvent = false → admits s.lifecycle i = true →
    exec i s = .next t → t.response = some r → r.status ≠ .invalidState) ∧
  ∀ s : State, s.Invariants → s.lifecycle ≠ .running → ∀ id : TimerId, s.due id = false

/-- When several errors apply, the first in the order of 60_exceptions.md R123 is the one reported, and
nothing else changes. -/
def Obligations.ErrorsInOrder : Prop :=
  (∀ (s : State) (ch ef : BitVec 4), s.lifecycle = .running → 4 ≤ ef.toNat →
    exec (.act ch ef) s = .next { s with response := some { status := .invalidEffect, result := 0 } } ∧
    exec (.deact ef) s = .next { s with response := some { status := .invalidEffect, result := 0 } }) ∧
  (∀ (s : State) (ch : BitVec 4), s.lifecycle = .running →
    (∀ c, Channel.ofField ch = some c → s.kind.get c = .unassigned) →
    exec (.act ch 0) s = .next { s with response := some { status := .invalidChannel, result := 0 } } ∧
    ∀ v, exec (.setb ch v) s =
      .next { s with response := some { status := .invalidChannel, result := 0 } }) ∧
  (∀ (s : State) (c : Channel) (v : Word), s.lifecycle = .running → s.kind.get c ≠ .unassigned →
    s.maxbOf c < v →
    exec (.setb c.field v) s =
      .next { s with response := some { status := .invalidBrightness, result := 0 } }) ∧
  ∀ (s : State) (cfg : ConfigRecord), s.lifecycle ≠ .running → validConfig cfg = false →
    exec (.init cfg) s =
      .next { s with response := some { status := .configurationError, result := 0 } }

/-! ## The duty-cycle mapper -/

/-- 40_channel_update.md R76: no intermediate leaves 64 bits, the quotient is exact floor arithmetic, the
duty fits u32 without truncation, LTH ≤ duty ≤ PERIOD, and it is the duty that is written to the port. -/
def Obligations.DutyStaysInBounds : Prop :=
  (∀ lth period maxb raw : Word, lth ≤ period → maxb ≠ 0 → raw ≤ maxb →
    raw.toNat * (period.toNat - lth.toNat) < 2 ^ 64 ∧
    raw.toNat * (period.toNat - lth.toNat) / maxb.toNat ≤ period.toNat - lth.toNat ∧
    (dutyWord lth period maxb raw).toNat =
      lth.toNat + raw.toNat * (period.toNat - lth.toNat) / maxb.toNat ∧
    lth ≤ dutyWord lth period maxb raw ∧ dutyWord lth period maxb raw ≤ period) ∧
  ∀ (s : State) (c : Channel) (b raw : Word), s.kind.get c = .hardwarePWM → b ≠ 0 →
    rawOf c b s = some raw →
    ∃ t : State, driveChannel c b s = .ok t ∧
      (t.generator.get c).dutyNs = some (dutyWord (s.lthOf c) s.periodNs (s.maxbOf c) raw) ∧
      (t.generator.get c).periodNs = some s.periodNs

/-- 40_channel_update.md R81, without a levels table: the duty at MAXB is the period, below MAXB it is less,
it exceeds LTH exactly when b·(P − LTH) ≥ MAXB, and the strict property of the source holds for every b
if and only if P − LTH ≥ MAXB (where some b lies strictly between 0 and MAXB). -/
def Obligations.DutyAtTheEnds : Prop :=
  ∀ period maxb : Word, period ≠ 0 → maxb ≠ 0 →
    dutyWord (period / maxb) period maxb maxb = period ∧
    (∀ b : Word, b ≠ 0 → b < maxb →
      dutyWord (period / maxb) period maxb b < period ∧
      (period / maxb < dutyWord (period / maxb) period maxb b ↔
        maxb.toNat ≤ b.toNat * (period.toNat - (period / maxb).toNat))) ∧
    (2 ≤ maxb.toNat →
      ((∀ b : Word, b ≠ 0 → b < maxb →
          period / maxb < dutyWord (period / maxb) period maxb b ∧
          dutyWord (period / maxb) period maxb b < period) ↔
        maxb.toNat ≤ period.toNat - (period / maxb).toNat))

/-! ## The facade -/

/-- SETB of a good channel and value (43_facade.md R109, 40_channel_update.md R77, R78, R79): OK, BRIGHT[c]
holds the value, the events are those of one ChannelUpdate, a HardwarePWM generator is programmed or
disabled, a SoftwarePWM timer is armed unless it runs, and nothing else changes. -/
def Obligations.SetbSetsAndUpdates : Prop :=
  ∀ (s : State) (c : Channel) (v : Word), s.lifecycle = .running → s.kind.get c ≠ .unassigned →
    v ≤ s.maxbOf c → s.TablesCover →
    ∃ t : State, exec (.setb c.field v) s = .next t ∧
      t.response = some { status := .ok, result := 0 } ∧ t.brightOf c = v ∧
      t.log = s.log ++ s.stamped (s.channelEvents c (clampTo (s.maxbOf c) (Config.notify c v))) ∧
      (s.kind.get c = .hardwarePWM → clampTo (s.maxbOf c) (Config.notify c v) = 0 →
        t.generator.get c = { s.generator.get c with enabled := some false }) ∧
      (s.kind.get c = .hardwarePWM → clampTo (s.maxbOf c) (Config.notify c v) ≠ 0 →
        t.generator.get c =
          { enabled := some true,
            dutyNs := some (dutyWord (s.lthOf c) s.periodNs (s.maxbOf c)
              (s.rawValue c (clampTo (s.maxbOf c) (Config.notify c v)))),
            periodNs := some s.periodNs }) ∧
      (s.kind.get c = .softwarePWM → t.generator.get c = s.generator.get c) ∧
      t.swt.get c = s.softTimerAfter c ∧
      (∀ r, r ∉ [Reg.bright c, .swtArmed c, .swtDeadline c, .genEnabled c, .genDutyNs c, .genPeriodNs c] →
        t.reg r = s.reg r) ∧
      t.faultBy = s.faultBy ∧ t.inputs = s.inputs

/-- 43_facade.md R110, with the refresh of 40_channel_update.md R80: UPDATE while running answers OK after
one full refresh grouped by channel in index order, the generators as its events leave them, every stopped
soft-PWM timer armed, no brightness and no other register changed; in another LIFECYCLE it answers
INVALID_STATE. -/
def Obligations.UpdateRefreshesAll : Prop :=
  (∀ s : State, s.lifecycle ≠ .running →
    exec .update s = .next { s with response := some { status := .invalidState, result := 0 } }) ∧
  ∀ s : State, s.lifecycle = .running → s.TablesCover →
    ∃ t : State, exec .update s = .next t ∧ t.response = some { status := .ok, result := 0 } ∧
      s.Emitted s.refreshEvents t ∧ (∀ c, t.swt.get c = s.softTimerAfter c) ∧
      (∀ r, r ∉ allSwtRegs ++ allGenRegs → t.reg r = s.reg r) ∧
      t.faultBy = s.faultBy ∧ t.inputs = s.inputs

/-- 43_facade.md R111: SHUTDOWN disarms every timer, clears ACTIVE_MASK, forces every channel off and then
releases every handle, in channel order; the configuration, SAVED_COLOR, STEP, PHASE and PULSE_CH keep
their values; in another LIFECYCLE it answers INVALID_STATE. -/
def Obligations.ShutdownTurnsOff : Prop :=
  (∀ s : State, s.lifecycle ≠ .running →
    exec .shutdown s = .next { s with response := some { status := .invalidState, result := 0 } }) ∧
  ∀ s : State, s.lifecycle = .running →
    ∃ t : State, exec .shutdown s = .next t ∧ t.response = some { status := .ok, result := 0 } ∧
      t.lifecycle = .shutdown ∧ t.activeMask = 0 ∧
      (∀ id : TimerId, t.timer id = { s.timer id with armed := false }) ∧
      (∀ c, t.brightOf c = 0) ∧
      t.log = s.log ++ s.stamped (offWrites s.kind ++ releases s.kind) ∧
      (∀ c, s.kind.get c = .unassigned →
        t.swLevel.get c = s.swLevel.get c ∧ t.acquired.get c = s.acquired.get c ∧
        t.generator.get c = s.generator.get c ∧ t.pin.get c = s.pin.get c) ∧
      (∀ c, s.kind.get c = .hardwarePWM →
        t.swLevel.get c = s.swLevel.get c ∧ t.acquired.get c = false ∧
        t.generator.get c = { s.generator.get c with enabled := some false } ∧
        t.pin.get c = s.pin.get c) ∧
      (∀ c, s.kind.get c = .softwarePWM →
        t.swLevel.get c = .low ∧ t.acquired.get c = false ∧
        t.generator.get c = s.generator.get c ∧ t.pin.get c = some .low) ∧
      t.kind = s.kind ∧ t.maxb = s.maxb ∧ t.lth = s.lth ∧ t.levels = s.levels ∧
      t.periodNs = s.periodNs ∧ t.savedColor = s.savedColor ∧ t.fxStep = s.fxStep ∧
      t.phase = s.phase ∧ t.pulseCh = s.pulseCh ∧ t.nowNs = s.nowNs ∧ t.fault = s.fault ∧
      t.faultBy = s.faultBy ∧ t.inputs = s.inputs

/-- 43_facade.md R112: RDB answers the brightness in every LIFECYCLE, 0 for an Unassigned channel and after
SHUTDOWN, INVALID_CHANNEL for CH 4..15, and changes nothing. -/
def Obligations.RdbReads : Prop :=
  ∀ s : State,
    (∀ c : Channel, exec (.rdb c.field) s =
      .next { s with response := some { status := .ok, result := s.brightOf c } }) ∧
    (∀ c : Channel, s.kind.get c = .unassigned → s.brightOf c = 0) ∧
    (∀ (c : Channel) (t : State), s.lifecycle = .running → exec .shutdown s = .next t →
      exec (.rdb c.field) t = .next { t with response := some { status := .ok, result := 0 } }) ∧
    ∀ ch : BitVec 4, 4 ≤ ch.toNat → exec (.rdb ch) s =
      .next { s with response := some { status := .invalidChannel, result := 0 } }

/-- 43_facade.md R113: RDFX answers ACTIVE_MASK in every LIFECYCLE, bit k set meaning effect k is active,
at most one bit set, and changes nothing. -/
def Obligations.RdfxReads : Prop :=
  ∀ s : State, ∃ w : Word,
    exec .rdfx s = .next { s with response := some { status := .ok, result := w } } ∧
    w.toNat = s.activeMask.toNat ∧
    (∀ k : Effect, w.getLsbD k.number = maskHas s.activeMask k) ∧
    (s.Invariants → ∀ j l : Nat, w.getLsbD j = true → w.getLsbD l = true → j = l)

/-! ## The effect engine -/

/-- ACT with no effect active (42_effects.md R91, R101): the snapshot, the bit, STEP and PHASE 0, PULSE_CH,
the effect's timer one interval ahead, OK, and nothing else; no event. -/
def Obligations.ActFromIdle : Prop :=
  ∀ (s : State) (ch : BitVec 4) (k : Effect), s.lifecycle = .running → s.activeMask = 0 →
    (k = .pulse → ∃ c, Channel.ofField ch = some c ∧ s.kind.get c ≠ .unassigned) →
    exec (.act ch k.field) s = .next { s with
      savedColor := Bank.ofFn s.brightOf,
      activeMask := 1 <<< k.number,
      fxStep := 0,
      phase := 0,
      pulseCh := if k = .pulse then Channel.ofField ch else none,
      fxt := s.fxt.set k
        { armed := true,
          deadline := BitVec.ofNat 64 (s.nowNs.toNat +
            match k with
            | .pulse => Config.pulseTickNs
            | .blink => Config.blinkTickNs
            | .heartbeat => Config.hbShortNs
            | .rainbow => Config.pulseTickNs) },
      response := some { status := .ok, result := 0 } }

/-- ACT while effect a is active, a being k or not (42_effects.md R91, R92): a's saved colour is restored
and refreshed, and is the new snapshot; only bit k is left; FXT[k] is armed one interval ahead (R101),
replacing a pending deadline; a's timer, if it is another one, keeps its deadline.  The generators are as the
refresh's events leave them (10_state.md R36). -/
def Obligations.ActReplacesActive : Prop :=
  ∀ (s : State) (ch : BitVec 4) (k a : Effect), s.lifecycle = .running →
    s.activeMask = 1 <<< a.number → s.TablesCover →
    (k = .pulse → ∃ c, Channel.ofField ch = some c ∧ s.kind.get c ≠ .unassigned) →
    ∃ t : State, exec (.act ch k.field) s = .next t ∧ t.response = some { status := .ok, result := 0 } ∧
      (∀ c, t.brightOf c = hardwired (s.kind.get c) (s.savedColor.get c)) ∧
      (∀ c, t.savedColor.get c = hardwired (s.kind.get c) (s.savedColor.get c)) ∧
      t.activeMask = 1 <<< k.number ∧ t.fxStep = 0 ∧ t.phase = 0 ∧
      t.pulseCh = (if k = .pulse then Channel.ofField ch else none) ∧
      (∀ l, l ≠ k → t.fxt.get l = s.fxt.get l) ∧
      t.fxt.get k =
        { armed := true,
          deadline := BitVec.ofNat 64 (s.nowNs.toNat +
            match k with
            | .pulse => Config.pulseTickNs
            | .blink => Config.blinkTickNs
            | .heartbeat => Config.hbShortNs
            | .rainbow => Config.pulseTickNs) } ∧
      s.Emitted s.restoreColor.refreshEvents t ∧
      (∀ c, t.swt.get c = s.softTimerAfter c) ∧
      (∀ r, r ∉ allBrightRegs ++ allChannels.map Reg.savedColor ++
          [Reg.activeMask, .fxStep, .phase, .pulseCh, .fxtArmed k, .fxtDeadline k] ++
          allSwtRegs ++ allGenRegs → t.reg r = s.reg r) ∧
      t.faultBy = s.faultBy ∧ t.inputs = s.inputs

/-- DEACT of an active effect (42_effects.md R92, R93): the bit is cleared, the saved colour restored and
refreshed once, the generators as the refresh's events leave them, FXT[k] stays as it is, STEP, PHASE and
PULSE_CH too. -/
def Obligations.DeactRestores : Prop :=
  ∀ (s : State) (k : Effect), s.lifecycle = .running → maskHas s.activeMask k = true → s.TablesCover →
    ∃ t : State, exec (.deact k.field) s = .next t ∧ t.response = some { status := .ok, result := 0 } ∧
      maskHas t.activeMask k = false ∧
      (∀ l, l ≠ k → maskHas t.activeMask l = maskHas s.activeMask l) ∧
      (∀ c, t.brightOf c = hardwired (s.kind.get c) (s.savedColor.get c)) ∧
      s.Emitted s.restoreColor.refreshEvents t ∧
      (∀ c, t.swt.get c = s.softTimerAfter c) ∧
      (∀ r, r ∉ allBrightRegs ++ [Reg.activeMask] ++ allSwtRegs ++ allGenRegs → t.reg r = s.reg r) ∧
      t.faultBy = s.faultBy ∧ t.inputs = s.inputs

/-- DEACT of an effect that is not active is a no-op that answers OK (42_effects.md R93). -/
def Obligations.DeactOfInactive : Prop :=
  ∀ (s : State) (k : Effect), s.lifecycle = .running → maskHas s.activeMask k = false →
    exec (.deact k.field) s = .next { s with response := some { status := .ok, result := 0 } }

/-- A tick whose bit is clear disarms its timer and does nothing else (42_effects.md R95, 60_exceptions.md
R126). -/
def Obligations.InactiveTickCancelsItself : Prop :=
  ∀ (s : State) (k : Effect), maskHas s.activeMask k = false →
    exec (tickOf k) s =
      .next { s with fxt := s.fxt.set k { s.fxt.get k with armed := false } }

/-- TICK.PULSE while Pulse is active (42_effects.md R95, R96): the target gets min(PulseTable[STEP], MAXB),
STEP advances and wraps after 74, one refresh, the generators as its events leave them, re-armed
PULSE_TICK_NS ahead, no other channel's brightness and no other register changed. -/
def Obligations.PulseTick : Prop :=
  ∀ (s : State) (c : Channel), maskHas s.activeMask .pulse = true → s.pulseCh = some c →
    s.kind.get c ≠ .unassigned → s.fxStep.toNat ≤ 74 → s.TablesCover →
    ∃ t : State, exec .tickPulse s = .next t ∧
      (t.brightOf c).toNat = min (pulseEntry s.fxStep.toNat) (s.maxbOf c).toNat ∧
      t.fxStep.toNat = (s.fxStep.toNat + 1) % 75 ∧
      t.fxt.get .pulse =
        { armed := true, deadline := BitVec.ofNat 64 (s.nowNs.toNat + Config.pulseTickNs) } ∧
      s.Emitted (s.setBright c (t.brightOf c)).refreshEvents t ∧
      (∀ d, t.swt.get d = s.softTimerAfter d) ∧
      (∀ r, r ∉ [Reg.bright c, .fxStep, .fxtArmed .pulse, .fxtDeadline .pulse] ++ allSwtRegs ++
        allGenRegs → t.reg r = s.reg r) ∧
      t.faultBy = s.faultBy ∧ t.response = s.response ∧ t.inputs = s.inputs

/-- TICK.BLINK while Blink is active (42_effects.md R95, R97): STEP 0 forces every channel to 0, STEP 1
restores the saved colour; STEP toggles; one refresh, the generators as its events leave them;
re-armed BLINK_TICK_NS ahead. -/
def Obligations.BlinkTick : Prop :=
  ∀ s : State, maskHas s.activeMask .blink = true → s.fxStep.toNat ≤ 1 → s.TablesCover →
    ∃ t : State, exec .tickBlink s = .next t ∧
      (∀ c, t.brightOf c =
        if s.fxStep = 0 then 0 else hardwired (s.kind.get c) (s.savedColor.get c)) ∧
      t.fxStep.toNat = 1 - s.fxStep.toNat ∧
      t.fxt.get .blink =
        { armed := true, deadline := BitVec.ofNat 64 (s.nowNs.toNat + Config.blinkTickNs) } ∧
      s.Emitted (s.setAllBright t.brightOf).refreshEvents t ∧
      (∀ d, t.swt.get d = s.softTimerAfter d) ∧
      (∀ r, r ∉ allBrightRegs ++ [Reg.fxStep, .fxtArmed .blink, .fxtDeadline .blink] ++ allSwtRegs ++
        allGenRegs → t.reg r = s.reg r) ∧
      t.faultBy = s.faultBy ∧ t.response = s.response ∧ t.inputs = s.inputs

/-- TICK.HEARTBEAT while Heartbeat is active (42_effects.md R95, R98): even steps force every channel to
0, odd steps restore the saved colour; STEP counts modulo 4; one refresh, the generators as its events
leave them; the interval is the long one after step 2 and the short one otherwise. -/
def Obligations.HeartbeatTick : Prop :=
  ∀ s : State, maskHas s.activeMask .heartbeat = true → s.fxStep.toNat ≤ 3 → s.TablesCover →
    ∃ t : State, exec .tickHeartbeat s = .next t ∧
      (∀ c, t.brightOf c =
        if s.fxStep.toNat % 2 = 0 then 0 else hardwired (s.kind.get c) (s.savedColor.get c)) ∧
      t.fxStep.toNat = (s.fxStep.toNat + 1) % 4 ∧
      t.fxt.get .heartbeat =
        { armed := true,
          deadline := BitVec.ofNat 64 (s.nowNs.toNat +
            if s.fxStep.toNat = 2 then 700000000 else 100000000) } ∧
      s.Emitted (s.setAllBright t.brightOf).refreshEvents t ∧
      (∀ d, t.swt.get d = s.softTimerAfter d) ∧
      (∀ r, r ∉ allBrightRegs ++ [Reg.fxStep, .fxtArmed .heartbeat, .fxtDeadline .heartbeat] ++
        allSwtRegs ++ allGenRegs → t.reg r = s.reg r) ∧
      t.faultBy = s.faultBy ∧ t.response = s.response ∧ t.inputs = s.inputs

/-- TICK.RAINBOW while Rainbow is active (42_effects.md R99, R100 in the frame of R95): the moving channel of
the phase shows min(STEP, M) or M − min(STEP, M) with M its MAXB, one other is held at its MAXB and one at
0, White is untouched; when STEP + 1 reaches M the next phase starts at STEP 0; one refresh, the
generators as its events leave them.  The rows of phases 1 to 5
and Blue's 0 in phase 0 are marked by R99 "from general knowledge, not in source" (log entry 26). -/
def Obligations.RainbowTick : Prop :=
  ∀ (s : State) (m hi lo : Channel) (up : Bool), maskHas s.activeMask .rainbow = true →
    (m, up, hi, lo) =
      (match s.phase with
        | 0 => (Channel.green, true, Channel.red, Channel.blue)
        | 1 => (.red, false, .green, .blue)
        | 2 => (.blue, true, .green, .red)
        | 3 => (.green, false, .blue, .red)
        | 4 => (.red, true, .blue, .green)
        | 5 => (.blue, false, .red, .green)) →
    s.TablesCover →
    ∃ t : State, exec .tickRainbow s = .next t ∧
      (t.brightOf m).toNat =
        (if up then min s.fxStep.toNat (s.maxbOf m).toNat
          else (s.maxbOf m).toNat - min s.fxStep.toNat (s.maxbOf m).toNat) ∧
      t.brightOf hi = s.maxbOf hi ∧ t.brightOf lo = 0 ∧ t.brightOf .white = s.brightOf .white ∧
      ((s.maxbOf m).toNat ≤ s.fxStep.toNat + 1 →
        t.phase.val = (s.phase.val + 1) % 6 ∧ t.fxStep = 0) ∧
      (s.fxStep.toNat + 1 < (s.maxbOf m).toNat →
        t.phase = s.phase ∧ t.fxStep.toNat = s.fxStep.toNat + 1) ∧
      t.fxt.get .rainbow =
        { armed := true, deadline := BitVec.ofNat 64 (s.nowNs.toNat + Config.pulseTickNs) } ∧
      s.Emitted (s.setAllBright t.brightOf).refreshEvents t ∧
      (∀ d, t.swt.get d = s.softTimerAfter d) ∧
      (∀ r, r ∉ [Reg.bright .red, .bright .green, .bright .blue, .fxStep, .phase, .fxtArmed .rainbow,
        .fxtDeadline .rainbow] ++ allSwtRegs ++ allGenRegs → t.reg r = s.reg r) ∧
      t.faultBy = s.faultBy ∧ t.response = s.response ∧ t.inputs = s.inputs

/-- 42_effects.md R103, the round-trip law: with no effect active, ACT k, then any ticks, FIREs and SETBs in
any order, then DEACT k leave every channel's brightness as it was before the ACT; with effect a active
at the ACT, they leave a's saved colour.  The list may hold a FIRE that raises a fault, and execAll goes on
past it, since exec is not gated by FAULT (the model's choice, log entry 4). -/
def Obligations.RoundTripLaw : Prop :=
  (∀ (s : State) (ch : BitVec 4) (k : Effect) (is : List Instr), s.lifecycle = .running →
    s.activeMask = 0 →
    (k = .pulse → ∃ c, Channel.ofField ch = some c ∧ s.kind.get c ≠ .unassigned) →
    (∀ i ∈ is, (∃ l, i = tickOf l) ∨ (∃ c, i = .fire c) ∨ ∃ c v, i = .setb c v) →
    ∃ t : State, execAll (.act ch k.field :: is ++ [.deact k.field]) s = .next t ∧
      ∀ c, t.brightOf c = s.brightOf c) ∧
  ∀ (s : State) (ch : BitVec 4) (k a : Effect) (is : List Instr), s.lifecycle = .running →
    s.activeMask = 1 <<< a.number → s.TablesCover →
    (k = .pulse → ∃ c, Channel.ofField ch = some c ∧ s.kind.get c ≠ .unassigned) →
    (∀ i ∈ is, (∃ l, i = tickOf l) ∨ (∃ c, i = .fire c) ∨ ∃ c v, i = .setb c v) →
    ∃ t : State, execAll (.act ch k.field :: is ++ [.deact k.field]) s = .next t ∧
      ∀ c, t.brightOf c = hardwired (s.kind.get c) (s.savedColor.get c)

/-- 42_effects.md R106: one full colour wheel takes 2·(MAXB[0] + MAXB[1] + MAXB[2]) ticks, after which PHASE
and STEP are 0 again. -/
def Obligations.RainbowCycle : Prop :=
  ∀ s : State, maskHas s.activeMask .rainbow = true → s.phase = 0 → s.fxStep = 0 →
    s.maxbOf .red ≠ 0 → s.maxbOf .green ≠ 0 → s.maxbOf .blue ≠ 0 → s.TablesCover →
    ∃ t : State,
      execAll (List.replicate (2 * ((s.maxbOf .red).toNat + (s.maxbOf .green).toNat +
        (s.maxbOf .blue).toNat)) .tickRainbow) s = .next t ∧
      t.phase = 0 ∧ t.fxStep = 0 ∧ maskHas t.activeMask .rainbow = true

/-- 42_effects.md R105: tick n of Pulse writes min(PulseTable[n mod 75], MAXB[c]) to the target and leaves
the other channels' brightness alone, for every n, so that the sequence repeats every 75 ticks. -/
def Obligations.PulseWaveform : Prop :=
  ∀ (s : State) (c : Channel) (n : Nat), maskHas s.activeMask .pulse = true → s.pulseCh = some c →
    s.kind.get c ≠ .unassigned → s.fxStep = 0 → s.TablesCover →
    ∃ t : State, execAll (List.replicate (n + 1) .tickPulse) s = .next t ∧
      (t.brightOf c).toNat = min (pulseEntry (n % 75)) (s.maxbOf c).toNat ∧
      t.fxStep.toNat = (n + 1) % 75 ∧ ∀ d, d ≠ c → t.brightOf d = s.brightOf d

/-- After DEACT of an active effect its timer still fires once: that tick writes no brightness, emits
nothing and leaves the timer disarmed (70_reset_and_hazards.md R145, 42_effects.md R92, R95). -/
def Obligations.InertTickAfterDeact : Prop :=
  ∀ (s : State) (k : Effect), s.lifecycle = .running → maskHas s.activeMask k = true → s.TablesCover →
    ∃ t u : State, exec (.deact k.field) s = .next t ∧ t.fxt = s.fxt ∧
      exec (tickOf k) t = .next u ∧ u.bright = t.bright ∧ u.log = t.log ∧
      (u.fxt.get k).armed = false ∧ (u.fxt.get k).deadline = (s.fxt.get k).deadline

/-- On every weakly fair run (60_exceptions.md R125), a due timer of an effect that stays inactive is in the
end served and disarmed, without ever being re-armed (60_exceptions.md R126, 70_reset_and_hazards.md
R145). -/
def Obligations.InertTimerIsServed : Prop :=
  ∀ (run : Nat → State) (k : Effect) (n : Nat), IsRun run → WeaklyFair run →
    (run n).due (.effect k) = true → (∀ m, n ≤ m → maskHas (run m).activeMask k = false) →
    ∃ m, n < m ∧ ((run m).fxt.get k).armed = false ∧
      ∀ j, n ≤ j → j < m → (run j).fxt.get k = (run n).fxt.get k

/-- 70_reset_and_hazards.md R148: no command or event ever sets a second bit of ACTIVE_MASK, and only ACT,
DEACT, SHUTDOWN and INIT write it. -/
def Obligations.EffectExclusivity : Prop :=
  ∀ (i : Instr) (s t : State), exec i s = .next t →
    (s.OneEffect → t.OneEffect) ∧
    (t.activeMask ≠ s.activeMask →
      (∃ ch ef, i = .act ch ef) ∨ (∃ ef, i = .deact ef) ∨ i = .shutdown ∨ ∃ cfg, i = .init cfg)

/-! ## The soft-PWM scheduler -/

/-- 41_softpwm.md R86, for a SoftwarePWM channel: steady High at or above MAXB and steady Low at 0, both
without re-arming; otherwise the level flips, the timer is re-armed b·LTH ahead for High and
PERIOD − b·LTH ahead for Low, and the pin is driven; an interval that is not positive raises
INTERVAL_NONPOSITIVE with nothing driven.  The events' logs hold exactly one GPIO_WRITE. -/
def Obligations.FireFollowsItsRule : Prop :=
  ∀ (s : State) (c : Channel), s.kind.get c = .softwarePWM →
    (s.maxbOf c ≤ s.brightOf c →
      exec (.fire c.field) s = .next { s with
        swt := s.swt.set c { s.swt.get c with armed := false },
        swLevel := s.swLevel.set c .high,
        pin := s.pin.set c (some .high),
        log := s.log ++ s.stamped [(c, .gpioWrite .high)] }) ∧
    (s.brightOf c < s.maxbOf c → s.brightOf c = 0 →
      exec (.fire c.field) s = .next { s with
        swt := s.swt.set c { s.swt.get c with armed := false },
        swLevel := s.swLevel.set c .low,
        pin := s.pin.set c (some .low),
        log := s.log ++ s.stamped [(c, .gpioWrite .low)] }) ∧
    (s.brightOf c < s.maxbOf c → s.brightOf c ≠ 0 → s.swLevel.get c = .low →
      (s.brightOf c).toNat * (s.lthOf c).toNat ≠ 0 →
      exec (.fire c.field) s = .next { s with
        swt := s.swt.set c
          { armed := true,
            deadline := BitVec.ofNat 64
              (s.nowNs.toNat + (s.brightOf c).toNat * (s.lthOf c).toNat) },
        swLevel := s.swLevel.set c .high,
        pin := s.pin.set c (some .high),
        log := s.log ++ s.stamped [(c, .gpioWrite .high)] }) ∧
    (s.brightOf c < s.maxbOf c → s.brightOf c ≠ 0 → s.swLevel.get c = .high →
      (s.brightOf c).toNat * (s.lthOf c).toNat < s.periodNs.toNat →
      exec (.fire c.field) s = .next { s with
        swt := s.swt.set c
          { armed := true,
            deadline := BitVec.ofNat 64
              (s.nowNs.toNat + (s.periodNs.toNat - (s.brightOf c).toNat * (s.lthOf c).toNat)) },
        swLevel := s.swLevel.set c .low,
        pin := s.pin.set c (some .low),
        log := s.log ++ s.stamped [(c, .gpioWrite .low)] }) ∧
    (s.brightOf c < s.maxbOf c → s.brightOf c ≠ 0 →
      (s.swLevel.get c = .low → (s.brightOf c).toNat * (s.lthOf c).toNat = 0) →
      (s.swLevel.get c = .high → s.periodNs.toNat ≤ (s.brightOf c).toNat * (s.lthOf c).toNat) →
      exec (.fire c.field) s = .next { s with
        swt := s.swt.set c { s.swt.get c with armed := false },
        swLevel := s.swLevel.set c (s.swLevel.get c).flip,
        fault := .intervalNonpositive,
        faultBy := some (.fire c.field) })

/-- A FIRE that names no SoftwarePWM channel, which no run reaches, raises INVARIANT_VIOLATION and changes
nothing else (the model's choice, log entry 8; 10_state.md R42 I4, 60_exceptions.md R121). -/
def Obligations.FireOfNoSoftChannelFaults : Prop :=
  ∀ (s : State) (ch : BitVec 4),
    (∀ c, Channel.ofField ch = some c → s.kind.get c ≠ .softwarePWM) →
    exec (.fire ch) s =
      .next { s with fault := .invariantViolation, faultBy := some (.fire ch) }

/-- 41_softpwm.md R88: with the brightness constant, a High interval and the Low interval after it last
PERIOD_NS together, when each firing happens at its deadline. -/
def Obligations.HighPlusLowIsThePeriod : Prop :=
  ∀ (s : State) (c : Channel), s.kind.get c = .softwarePWM → s.swLevel.get c = .low →
    s.brightOf c ≠ 0 → s.brightOf c < s.maxbOf c → s.lthOf c = s.periodNs / s.maxbOf c →
    s.lthOf c ≠ 0 →
    ∃ t u : State, exec (.fire c.field) s = .next t ∧ t.pin.get c = some .high ∧
      (t.swt.get c).deadline = s.nowNs + BitVec.ofNat 64 ((s.brightOf c).toNat * (s.lthOf c).toNat) ∧
      exec (.fire c.field) { t with nowNs := (t.swt.get c).deadline } = .next u ∧
      u.pin.get c = some .low ∧ u.swt.get c = { armed := true, deadline := s.nowNs + s.periodNs.setWidth 64 }

/-- A running soft-PWM scheduler is left alone by everything but its own firing, SHUTDOWN and INIT: its
armed interval runs out with the pin as it is (70_reset_and_hazards.md R144, 41_softpwm.md R84, R85). -/
def Obligations.RunningSoftPwmIsNotDisturbed : Prop :=
  ∀ (i : Instr) (s t : State) (c : Channel), exec i s = .next t → (s.swt.get c).armed = true →
    i ≠ .fire c.field → i ≠ .shutdown → (∀ cfg, i ≠ .init cfg) →
    t.swt.get c = s.swt.get c ∧ t.swLevel.get c = s.swLevel.get c ∧ t.pin.get c = s.pin.get c

/-! ## INIT -/

/-- INIT's validation is exactly V1 to V7 of 70_reset_and_hazards.md R139, with the levels tables of
20_memory.md R47. -/
def Obligations.InitValidation : Prop :=
  ∀ cfg : ConfigRecord, validConfig cfg = true ↔
    (3 ≤ cfg.length ∧ cfg.length ≤ 4) ∧
    (cfg.map Entry.color).Nodup ∧
    (∀ c, c ≠ Channel.white → ∃ e ∈ cfg, e.color = c) ∧
    (∀ e ∈ cfg, e.maxBrightness ≠ 0) ∧
    (∀ e ∈ cfg, ∀ t, e.levels = some t →
      t.length = e.maxBrightness.toNat + 1 ∧
      (∀ (j : Nat) (a b : Word), t[j]? = some a → t[j + 1]? = some b → a ≤ b) ∧
      ∀ v ∈ t, v ≤ e.maxBrightness) ∧
    configPeriod cfg ≠ 0 ∧
    ∀ e ∈ cfg, e.kind = .softwarePWM → configPeriod cfg / e.maxBrightness ≠ 0

/-- The period is that of the first HardwarePWM entry in list order, or 7 650 000 where there is none
(70_reset_and_hazards.md R140). -/
def Obligations.PeriodSelection : Prop :=
  (∀ (pre post : ConfigRecord) (e : Entry), e.kind = .hardwarePWM →
    (∀ d ∈ pre, d.kind = .softwarePWM) → configPeriod (pre ++ e :: post) = e.hwPeriodNs) ∧
  ∀ cfg : ConfigRecord, (∀ d ∈ cfg, d.kind = .softwarePWM) → (configPeriod cfg).toNat = 7650000

/-- INIT of a valid record whose handles are all acquired (70_reset_and_hazards.md R139, R142): the state
it leaves, register by register, and its events.  That a disarmed timer keeps its deadline and that a port
no off-write reaches is UNKNOWN are the model's readings (log entries 17 and 13). -/
def Obligations.InitAccepts : Prop :=
  ∀ (s : State) (cfg : ConfigRecord), s.lifecycle ≠ .running → validConfig cfg = true →
    (∀ b ∈ s.oracle.toList.take cfg.length, b = true) →
    ∃ t : State, exec (.init cfg) s = .next t ∧ t.response = some { status := .ok, result := 0 } ∧
      t.lifecycle = .running ∧ t.periodNs = configPeriod cfg ∧
      (∀ e ∈ cfg,
        t.kind.get e.color = kindOfEntry e.kind ∧ t.maxb.get e.color = e.maxBrightness ∧
        t.levels.get e.color = e.levels ∧
        t.lth.get e.color = configPeriod cfg / e.maxBrightness ∧ t.acquired.get e.color = true) ∧
      (∀ c, (∀ e ∈ cfg, e.color ≠ c) →
        t.kind.get c = .unassigned ∧ t.maxb.get c = 0 ∧ t.levels.get c = none ∧ t.lth.get c = 0 ∧
        t.acquired.get c = false ∧ t.generator.get c = Generator.unknown ∧ t.pin.get c = none) ∧
      (∀ c, t.bright.get c = 0 ∧ t.savedColor.get c = 0 ∧ t.swLevel.get c = .low) ∧
      (∀ id : TimerId, t.timer id = { s.timer id with armed := false }) ∧
      t.activeMask = 0 ∧ t.fxStep = 0 ∧ t.phase = 0 ∧ t.pulseCh = none ∧
      (∀ c, t.kind.get c = .hardwarePWM → (t.generator.get c).enabled = some false) ∧
      (∀ c, t.kind.get c = .softwarePWM → t.pin.get c = some .low) ∧
      t.log = s.log ++ s.stamped (cfg.map (fun e => (e.color, .acquire)) ++ offWrites t.kind) ∧
      t.nowNs = s.nowNs ∧ t.fault = s.fault ∧ t.faultBy = s.faultBy ∧ t.inputs = s.inputs

/-- 70_reset_and_hazards.md R141: when the handle of entry j is the first that cannot be acquired, the
handles before it are released in reverse order, INIT answers RESOURCE_UNAVAILABLE, and nothing else is
written: LIFECYCLE and every other register stay as they were, the port registers too. -/
def Obligations.InitReleasesOnFailure : Prop :=
  ∀ (s : State) (cfg : ConfigRecord) (j : Nat), s.lifecycle ≠ .running → validConfig cfg = true →
    j < cfg.length → (∀ b ∈ s.oracle.toList.take j, b = true) → s.oracle.toList[j]? = some false →
    exec (.init cfg) s = .next { s with
      response := some { status := .resourceUnavailable, result := 0 },
      log := s.log ++ s.stamped ((cfg.take j).map (fun e => (e.color, .acquire)) ++
        (cfg.take j).reverse.map (fun e => (e.color, .release))) }

/-! ## Whole-machine rules -/

/-- KIND, MAXB, LTH, LEVELS and PERIOD_NS are written by INIT only (10_state.md R17, R19, R21, R22,
20_memory.md R49). -/
def Obligations.ConfigurationWrittenOnlyByInit : Prop :=
  ∀ (i : Instr) (s t : State), exec i s = .next t → (∀ cfg, i ≠ .init cfg) →
    t.kind = s.kind ∧ t.maxb = s.maxb ∧ t.lth = s.lth ∧ t.levels = s.levels ∧ t.periodNs = s.periodNs

/-- Every command and event only appends to the event log, each entry stamped with the NOW_NS of its step,
and every channel's generator and pin are what those events make of them (10_state.md R36, R37,
20_memory.md R52).  An INIT that configures the block starts from UNKNOWN port registers, those of a channel
without a handle included (the model's reading, log entry 13). -/
def Obligations.EventsAreAppended : Prop :=
  ∀ (i : Instr) (s t : State), exec i s = .next t →
    ∃ es : List (Channel × PortEvent),
      (s.lifecycle = .running ∨ t.lifecycle ≠ .running → s.Emitted es t) ∧
      (s.lifecycle ≠ .running → t.lifecycle = .running → s.withUnknownPorts.Emitted es t)

/-- ChannelUpdate of an Unassigned channel does nothing, no command or event but INIT emits one for it, its
brightness reads 0, and after an INIT that answers OK only White can be Unassigned (10_state.md R43, R44). -/
def Obligations.UnassignedChannelIsSilent : Prop :=
  (∀ (s : State) (c : Channel), s.kind.get c = .unassigned → channelUpdate c s = .ok s) ∧
  (∀ (i : Instr) (s t : State) (c : Channel) (es : List (Channel × PortEvent)),
    (∀ cfg, i ≠ .init cfg) → exec i s = .next t → s.kind.get c = .unassigned →
    t.log = s.log ++ s.stamped es → (∀ ce ∈ es, ce.1 ≠ c) ∧ t.brightOf c = 0) ∧
  ∀ (cfg : ConfigRecord) (s t : State), exec (.init cfg) s = .next t →
    t.response = some { status := .ok, result := 0 } →
    ∀ c, t.kind.get c = .unassigned → c = .white

/-- The constraints P1 to P5 of 20_memory.md R46 on the PulseTable, whatever its free entries are. -/
def Obligations.PulseTableMeetsItsConstraints : Prop :=
  (∀ j, pulseRead j = none ↔ 75 ≤ j) ∧
  (∀ j, j < 75 → pulseRead j = some (BitVec.ofNat 32 (pulseEntry j)) ∧ pulseEntry j ≤ 254) ∧
  [0, 1, 2, 3, 4, 5, 6].map pulseEntry = [0, 1, 2, 3, 4, 6, 8] ∧
  (∃ j, j + 2 < 75 ∧ pulseEntry j = 254 ∧ pulseEntry (j + 1) = 254 ∧ pulseEntry (j + 2) = 254) ∧
  [71, 72, 73, 74].map pulseEntry = [0, 0, 0, 0]

/-- The reference scheduler of 60_exceptions.md R127 picks only enabled moves (10_state.md R33), in its order:
a due timer with the earliest deadline, ties going to effect timers and then to the lower index; with no
timer due, the host's command for the current instant; else ADVANCE to the earlier of the next deadline and
the next command's time; and nothing only when no timer is armed and no command is left.  That a command
whose time is at or before NOW_NS is one for the current instant is the model's reading (log entry 25). -/
def Obligations.ReferenceMoveIsAdmitted : Prop :=
  ∀ (answers : Answers) (next : Option Time) (s : State),
    match referenceMove answers next s with
    | none => (∀ id, (s.timer id).armed = false) ∧ next = none
    | some (.event w) => ∃ id : TimerId, id.word = w ∧ s.due id = true ∧
        ∀ other, s.due other = true →
          (s.timer id).deadline < (s.timer other).deadline ∨
          ((s.timer id).deadline = (s.timer other).deadline ∧ id.rank ≤ other.rank)
    | some (.host b) => b = answers ∧ (∀ id, s.due id = false) ∧ ∃ u, next = some u ∧ u ≤ s.nowNs
    | some (.advance u) =>
        (∀ id, s.due id = false) ∧ (∀ v, next = some v → s.nowNs < v) ∧ canAdvance u s = true ∧
        (∀ id, (s.timer id).armed = true → u ≤ (s.timer id).deadline) ∧ (∀ v, next = some v → u ≤ v) ∧
        ((∃ id, (s.timer id).armed = true ∧ (s.timer id).deadline = u) ∨ next = some u)
    | some .reset => False
end

