-- ==== Sys2Proof/Laws/Encoding.lean ====
section
/-! SUPPORT. The fields of command words (30_encoding.md rules R60, R64): reading a field of a word built from
fields, and the word of each row of the opcode table. -/

namespace Sys2Proof


/-- The number of two bit vectors side by side. -/
theorem toNat_append_add {m n : Nat} (x : BitVec m) (y : BitVec n) :
    (x ++ y).toNat = x.toNat * 2 ^ n + y.toNat := by
  rw [BitVec.toNat_append, ← Nat.shiftLeft_add_eq_or_of_lt y.isLt, Nat.shiftLeft_eq]

/-- The number of a command word (30_encoding.md rule R60). -/
theorem commandWord_toNat (op : BitVec 8) (ch ef : BitVec 4) :
    (commandWord op ch ef).toNat = op.toNat * 2 ^ 24 + ch.toNat * 2 ^ 20 + ef.toNat * 2 ^ 16 := by
  have h : (commandWord op ch ef).toNat = (op ++ ch ++ ef ++ (0 : BitVec 16)).toNat := rfl
  have h1 := op.isLt
  have h2 := ch.isLt
  have h3 := ef.isLt
  rw [h]
  simp only [toNat_append_add]
  simp
  omega

theorem opField_toNat (w : Word) : (opField w).toNat = w.toNat / 2 ^ 24 := by
  have := w.isLt
  simp only [opField, BitVec.extractLsb'_toNat, Nat.shiftRight_eq_div_pow]
  omega

theorem chField_toNat (w : Word) : (chField w).toNat = w.toNat / 2 ^ 20 % 2 ^ 4 := by
  simp only [chField, BitVec.extractLsb'_toNat, Nat.shiftRight_eq_div_pow]

theorem efField_toNat (w : Word) : (efField w).toNat = w.toNat / 2 ^ 16 % 2 ^ 4 := by
  simp only [efField, BitVec.extractLsb'_toNat, Nat.shiftRight_eq_div_pow]

theorem rsvField_toNat (w : Word) : (rsvField w).toNat = w.toNat % 2 ^ 16 := by
  simp [rsvField, BitVec.extractLsb'_toNat]

@[simp] theorem opField_commandWord (op : BitVec 8) (ch ef : BitVec 4) : opField (commandWord op ch ef) = op := by
  apply BitVec.eq_of_toNat_eq
  have h2 := ch.isLt
  have h3 := ef.isLt
  rw [opField_toNat, commandWord_toNat]; omega

@[simp] theorem chField_commandWord (op : BitVec 8) (ch ef : BitVec 4) : chField (commandWord op ch ef) = ch := by
  apply BitVec.eq_of_toNat_eq
  have h2 := ch.isLt
  have h3 := ef.isLt
  rw [chField_toNat, commandWord_toNat]; omega

@[simp] theorem efField_commandWord (op : BitVec 8) (ch ef : BitVec 4) : efField (commandWord op ch ef) = ef := by
  apply BitVec.eq_of_toNat_eq
  have h2 := ch.isLt
  have h3 := ef.isLt
  rw [efField_toNat, commandWord_toNat]; omega

@[simp] theorem rsvField_commandWord (op : BitVec 8) (ch ef : BitVec 4) : rsvField (commandWord op ch ef) = 0 := by
  apply BitVec.eq_of_toNat_eq
  rw [rsvField_toNat, commandWord_toNat]
  simp; omega

/-- A word with RSV = 0 is its other three fields. -/
theorem commandWord_of_fields {w : Word} (h : rsvField w = 0) :
    commandWord (opField w) (chField w) (efField w) = w := by
  apply BitVec.eq_of_toNat_eq
  have h1 : (rsvField w).toNat = 0 := by rw [h]; rfl
  rw [rsvField_toNat] at h1
  rw [commandWord_toNat, opField_toNat, chField_toNat, efField_toNat]
  have := w.isLt
  omega

/-- The fields of a masked word are the masked fields. -/
theorem fields_and (w m : Word) :
    opField (w &&& m) = opField w &&& opField m ∧ chField (w &&& m) = chField w &&& chField m ∧
    efField (w &&& m) = efField w &&& efField m ∧ rsvField (w &&& m) = rsvField w &&& rsvField m := by
  simp [opField, chField, efField, rsvField, BitVec.extractLsb'_and]

/-- Row membership field by field. -/
theorem OpcodeRow.holds_iff (r : OpcodeRow) (w : Word) :
    r.holds w = true ↔
      opField w &&& opField r.mask = opField r.pattern ∧
      chField w &&& chField r.mask = chField r.pattern ∧
      efField w &&& efField r.mask = efField r.pattern ∧
      rsvField w &&& rsvField r.mask = rsvField r.pattern := by
  rw [OpcodeRow.holds, beq_iff_eq]
  constructor
  · intro h
    have := fields_and w r.mask
    rw [h] at this
    exact ⟨this.1.symm, this.2.1.symm, this.2.2.1.symm, this.2.2.2.symm⟩
  · rintro ⟨h1, h2, h3, h4⟩
    obtain ⟨e1, e2, e3, e4⟩ := fields_and w r.mask
    rw [h1] at e1; rw [h2] at e2; rw [h3] at e3; rw [h4] at e4
    have k : ∀ u v : Word, opField u = opField v → chField u = chField v → efField u = efField v →
        rsvField u = rsvField v → u = v := by
      intro u v a b c d
      apply BitVec.eq_of_toNat_eq
      have a' := congrArg BitVec.toNat a
      have b' := congrArg BitVec.toNat b
      have c' := congrArg BitVec.toNat c
      have d' := congrArg BitVec.toNat d
      rw [opField_toNat, opField_toNat] at a'
      rw [chField_toNat, chField_toNat] at b'
      rw [efField_toNat, efField_toNat] at c'
      rw [rsvField_toNat, rsvField_toNat] at d'
      omega
    exact k _ _ e1 e2 e3 e4

theorem and_ff (x : BitVec 8) : x &&& 255#8 = x := by revert x; decide
theorem and_f (x : BitVec 4) : x &&& 15#4 = x := by revert x; decide
theorem and_ffff (x : BitVec 16) : x &&& 65535#16 = x := BitVec.and_allOnes

/-- A word that belongs to a row is the command word of that row's operation. -/
theorem rowOf_word {w : Word} {op : Op} (h : rowOf w = some op) :
    w = match op with
      | .setb => commandWord 0x01 (chField w) 0
      | .update => commandWord 0x02 0 0
      | .act => commandWord 0x03 (chField w) (efField w)
      | .deact => commandWord 0x04 0 (efField w)
      | .shutdown => commandWord 0x05 0 0
      | .rdb => commandWord 0x06 (chField w) 0
      | .rdfx => commandWord 0x07 0 0
      | .init => commandWord 0x10 0 0
      | .fire => commandWord 0x80 (chField w) 0
      | .tickPulse => commandWord 0x81 0 0
      | .tickBlink => commandWord 0x81 0 1
      | .tickHeartbeat => commandWord 0x81 0 2
      | .tickRainbow => commandWord 0x81 0 3 := by
  simp only [rowOf, Option.map_eq_some_iff] at h
  obtain ⟨r, hr, rfl⟩ := h
  have hm := List.mem_of_find?_eq_some hr
  have hh := (r.holds_iff w).mp (by simpa using List.find?_some hr)
  have key : rsvField w = 0 → w = commandWord (opField w) (chField w) (efField w) :=
    fun h => (commandWord_of_fields h).symm
  simp only [opcodeRows, hostRows, eventRows, List.cons_append, List.nil_append, List.mem_cons,
    List.not_mem_nil, or_false] at hm
  rcases hm with rfl | rfl | rfl | rfl | rfl | rfl | rfl | rfl | rfl | rfl | rfl | rfl | rfl <;>
  · simp [opField, chField, efField, rsvField, and_ff, and_f, and_ffff] at hh
    exact (key (by simp [rsvField, hh])).trans (by simp [opField, chField, efField, hh])
end Sys2Proof
end

