-- ==== Sys2Proof/Laws/State.lean ====
section
/-! SUPPORT. One lemma per field of State for each of its updates, each true by rfl, and the read-after-write
laws of the banks. -/

namespace Sys2Proof.Machine

/-! ## Banks -/

@[simp] theorem Bank.get_set_same {α : Type} (b : Bank α) (c : Channel) (v : α) :
    (b.set c v).get c = v := by cases c <;> rfl

@[simp] theorem Bank.get_set_ne {α : Type} (b : Bank α) {c d : Channel} (v : α) (h : d ≠ c) :
    (b.set c v).get d = b.get d := by cases c <;> cases d <;> first | rfl | exact absurd rfl h

theorem Bank.get_set {α : Type} (b : Bank α) (c d : Channel) (v : α) :
    (b.set c v).get d = if d = c then v else b.get d := by
  by_cases h : d = c
  · subst h; simp
  · simp [h]

@[simp] theorem Bank.get_ofFn {α : Type} (f : Channel → α) (c : Channel) : (Bank.ofFn f).get c = f c := by
  cases c <;> rfl

@[simp] theorem Bank.get_all {α : Type} (v : α) (c : Channel) : (Bank.all v).get c = v := by
  cases c <;> rfl

@[simp] theorem Bank.set_get {α : Type} (b : Bank α) (c : Channel) : b.set c (b.get c) = b := by
  cases c <;> rfl

@[simp] theorem Bank.set_set {α : Type} (b : Bank α) (c : Channel) (v w : α) :
    (b.set c v).set c w = b.set c w := by cases c <;> rfl

theorem Bank.ext_get {α : Type} {a b : Bank α} (h : ∀ c, a.get c = b.get c) : a = b := by
  obtain ⟨r, g, u, w⟩ := a
  obtain ⟨r', g', u', w'⟩ := b
  have h1 := h .red
  have h2 := h .green
  have h3 := h .blue
  have h4 := h .white
  simp only [Bank.get] at h1 h2 h3 h4
  rw [h1, h2, h3, h4]

@[simp] theorem FxBank.get_set_same {α : Type} (b : FxBank α) (k : Effect) (v : α) :
    (b.set k v).get k = v := by cases k <;> rfl

@[simp] theorem FxBank.get_set_ne {α : Type} (b : FxBank α) {k l : Effect} (v : α) (h : l ≠ k) :
    (b.set k v).get l = b.get l := by cases k <;> cases l <;> first | rfl | exact absurd rfl h

theorem FxBank.get_set {α : Type} (b : FxBank α) (k l : Effect) (v : α) :
    (b.set k v).get l = if l = k then v else b.get l := by
  by_cases h : l = k
  · subst h; simp
  · simp [h]

@[simp] theorem FxBank.get_ofFn {α : Type} (f : Effect → α) (k : Effect) : (FxBank.ofFn f).get k = f k := by
  cases k <;> rfl

@[simp] theorem FxBank.get_all {α : Type} (v : α) (k : Effect) : (FxBank.all v).get k = v := by
  cases k <;> rfl

@[simp] theorem FxBank.set_set {α : Type} (b : FxBank α) (k : Effect) (v w : α) :
    (b.set k v).set k w = b.set k w := by cases k <;> rfl

/-! ## Timers -/

@[simp] theorem Timer.arm_armed (d : Time) : (Timer.arm d).armed = true := rfl
@[simp] theorem Timer.arm_deadline (d : Time) : (Timer.arm d).deadline = d := rfl
@[simp] theorem Timer.disarm_armed (t : Timer) : t.disarm.armed = false := rfl
@[simp] theorem Timer.disarm_deadline (t : Timer) : t.disarm.deadline = t.deadline := rfl

/-! ## Fields -/

/-! ### respond -/

@[simp] theorem State.respond_kind (st : Status) (r : Word) (s : State) :
    (s.respond st r).kind = s.kind := rfl
@[simp] theorem State.respond_maxb (st : Status) (r : Word) (s : State) :
    (s.respond st r).maxb = s.maxb := rfl
@[simp] theorem State.respond_bright (st : Status) (r : Word) (s : State) :
    (s.respond st r).bright = s.bright := rfl
@[simp] theorem State.respond_lth (st : Status) (r : Word) (s : State) :
    (s.respond st r).lth = s.lth := rfl
@[simp] theorem State.respond_levels (st : Status) (r : Word) (s : State) :
    (s.respond st r).levels = s.levels := rfl
@[simp] theorem State.respond_swLevel (st : Status) (r : Word) (s : State) :
    (s.respond st r).swLevel = s.swLevel := rfl
@[simp] theorem State.respond_swt (st : Status) (r : Word) (s : State) :
    (s.respond st r).swt = s.swt := rfl
@[simp] theorem State.respond_periodNs (st : Status) (r : Word) (s : State) :
    (s.respond st r).periodNs = s.periodNs := rfl
@[simp] theorem State.respond_activeMask (st : Status) (r : Word) (s : State) :
    (s.respond st r).activeMask = s.activeMask := rfl
@[simp] theorem State.respond_fxStep (st : Status) (r : Word) (s : State) :
    (s.respond st r).fxStep = s.fxStep := rfl
@[simp] theorem State.respond_phase (st : Status) (r : Word) (s : State) :
    (s.respond st r).phase = s.phase := rfl
@[simp] theorem State.respond_savedColor (st : Status) (r : Word) (s : State) :
    (s.respond st r).savedColor = s.savedColor := rfl
@[simp] theorem State.respond_pulseCh (st : Status) (r : Word) (s : State) :
    (s.respond st r).pulseCh = s.pulseCh := rfl
@[simp] theorem State.respond_fxt (st : Status) (r : Word) (s : State) :
    (s.respond st r).fxt = s.fxt := rfl
@[simp] theorem State.respond_lifecycle (st : Status) (r : Word) (s : State) :
    (s.respond st r).lifecycle = s.lifecycle := rfl
@[simp] theorem State.respond_fault (st : Status) (r : Word) (s : State) :
    (s.respond st r).fault = s.fault := rfl
@[simp] theorem State.respond_faultBy (st : Status) (r : Word) (s : State) :
    (s.respond st r).faultBy = s.faultBy := rfl
@[simp] theorem State.respond_nowNs (st : Status) (r : Word) (s : State) :
    (s.respond st r).nowNs = s.nowNs := rfl
@[simp] theorem State.respond_acquired (st : Status) (r : Word) (s : State) :
    (s.respond st r).acquired = s.acquired := rfl
@[simp] theorem State.respond_generator (st : Status) (r : Word) (s : State) :
    (s.respond st r).generator = s.generator := rfl
@[simp] theorem State.respond_pin (st : Status) (r : Word) (s : State) :
    (s.respond st r).pin = s.pin := rfl
@[simp] theorem State.respond_log (st : Status) (r : Word) (s : State) :
    (s.respond st r).log = s.log := rfl
@[simp] theorem State.respond_response (st : Status) (r : Word) (s : State) :
    (s.respond st r).response = some { status := st, result := r } := rfl
@[simp] theorem State.respond_cmdPort (st : Status) (r : Word) (s : State) :
    (s.respond st r).cmdPort = s.cmdPort := rfl
@[simp] theorem State.respond_cfgPort (st : Status) (r : Word) (s : State) :
    (s.respond st r).cfgPort = s.cfgPort := rfl
@[simp] theorem State.respond_oracle (st : Status) (r : Word) (s : State) :
    (s.respond st r).oracle = s.oracle := rfl
@[simp] theorem State.respond_agenda (st : Status) (r : Word) (s : State) :
    (s.respond st r).agenda = s.agenda := rfl

/-! ### setBright -/

@[simp] theorem State.setBright_kind (c : Channel) (v : Word) (s : State) :
    (s.setBright c v).kind = s.kind := rfl
@[simp] theorem State.setBright_maxb (c : Channel) (v : Word) (s : State) :
    (s.setBright c v).maxb = s.maxb := rfl
@[simp] theorem State.setBright_bright (c : Channel) (v : Word) (s : State) :
    (s.setBright c v).bright = s.bright.set c (hardwired (s.kind.get c) v) := rfl
@[simp] theorem State.setBright_lth (c : Channel) (v : Word) (s : State) :
    (s.setBright c v).lth = s.lth := rfl
@[simp] theorem State.setBright_levels (c : Channel) (v : Word) (s : State) :
    (s.setBright c v).levels = s.levels := rfl
@[simp] theorem State.setBright_swLevel (c : Channel) (v : Word) (s : State) :
    (s.setBright c v).swLevel = s.swLevel := rfl
@[simp] theorem State.setBright_swt (c : Channel) (v : Word) (s : State) :
    (s.setBright c v).swt = s.swt := rfl
@[simp] theorem State.setBright_periodNs (c : Channel) (v : Word) (s : State) :
    (s.setBright c v).periodNs = s.periodNs := rfl
@[simp] theorem State.setBright_activeMask (c : Channel) (v : Word) (s : State) :
    (s.setBright c v).activeMask = s.activeMask := rfl
@[simp] theorem State.setBright_fxStep (c : Channel) (v : Word) (s : State) :
    (s.setBright c v).fxStep = s.fxStep := rfl
@[simp] theorem State.setBright_phase (c : Channel) (v : Word) (s : State) :
    (s.setBright c v).phase = s.phase := rfl
@[simp] theorem State.setBright_savedColor (c : Channel) (v : Word) (s : State) :
    (s.setBright c v).savedColor = s.savedColor := rfl
@[simp] theorem State.setBright_pulseCh (c : Channel) (v : Word) (s : State) :
    (s.setBright c v).pulseCh = s.pulseCh := rfl
@[simp] theorem State.setBright_fxt (c : Channel) (v : Word) (s : State) :
    (s.setBright c v).fxt = s.fxt := rfl
@[simp] theorem State.setBright_lifecycle (c : Channel) (v : Word) (s : State) :
    (s.setBright c v).lifecycle = s.lifecycle := rfl
@[simp] theorem State.setBright_fault (c : Channel) (v : Word) (s : State) :
    (s.setBright c v).fault = s.fault := rfl
@[simp] theorem State.setBright_faultBy (c : Channel) (v : Word) (s : State) :
    (s.setBright c v).faultBy = s.faultBy := rfl
@[simp] theorem State.setBright_nowNs (c : Channel) (v : Word) (s : State) :
    (s.setBright c v).nowNs = s.nowNs := rfl
@[simp] theorem State.setBright_acquired (c : Channel) (v : Word) (s : State) :
    (s.setBright c v).acquired = s.acquired := rfl
@[simp] theorem State.setBright_generator (c : Channel) (v : Word) (s : State) :
    (s.setBright c v).generator = s.generator := rfl
@[simp] theorem State.setBright_pin (c : Channel) (v : Word) (s : State) :
    (s.setBright c v).pin = s.pin := rfl
@[simp] theorem State.setBright_log (c : Channel) (v : Word) (s : State) :
    (s.setBright c v).log = s.log := rfl
@[simp] theorem State.setBright_response (c : Channel) (v : Word) (s : State) :
    (s.setBright c v).response = s.response := rfl
@[simp] theorem State.setBright_cmdPort (c : Channel) (v : Word) (s : State) :
    (s.setBright c v).cmdPort = s.cmdPort := rfl
@[simp] theorem State.setBright_cfgPort (c : Channel) (v : Word) (s : State) :
    (s.setBright c v).cfgPort = s.cfgPort := rfl
@[simp] theorem State.setBright_oracle (c : Channel) (v : Word) (s : State) :
    (s.setBright c v).oracle = s.oracle := rfl
@[simp] theorem State.setBright_agenda (c : Channel) (v : Word) (s : State) :
    (s.setBright c v).agenda = s.agenda := rfl

/-! ### setAllBright -/

@[simp] theorem State.setAllBright_kind (f : Channel → Word) (s : State) :
    (s.setAllBright f).kind = s.kind := rfl
@[simp] theorem State.setAllBright_maxb (f : Channel → Word) (s : State) :
    (s.setAllBright f).maxb = s.maxb := rfl
@[simp] theorem State.setAllBright_bright (f : Channel → Word) (s : State) :
    (s.setAllBright f).bright = Bank.ofFn (fun c => hardwired (s.kind.get c) (f c)) := rfl
@[simp] theorem State.setAllBright_lth (f : Channel → Word) (s : State) :
    (s.setAllBright f).lth = s.lth := rfl
@[simp] theorem State.setAllBright_levels (f : Channel → Word) (s : State) :
    (s.setAllBright f).levels = s.levels := rfl
@[simp] theorem State.setAllBright_swLevel (f : Channel → Word) (s : State) :
    (s.setAllBright f).swLevel = s.swLevel := rfl
@[simp] theorem State.setAllBright_swt (f : Channel → Word) (s : State) :
    (s.setAllBright f).swt = s.swt := rfl
@[simp] theorem State.setAllBright_periodNs (f : Channel → Word) (s : State) :
    (s.setAllBright f).periodNs = s.periodNs := rfl
@[simp] theorem State.setAllBright_activeMask (f : Channel → Word) (s : State) :
    (s.setAllBright f).activeMask = s.activeMask := rfl
@[simp] theorem State.setAllBright_fxStep (f : Channel → Word) (s : State) :
    (s.setAllBright f).fxStep = s.fxStep := rfl
@[simp] theorem State.setAllBright_phase (f : Channel → Word) (s : State) :
    (s.setAllBright f).phase = s.phase := rfl
@[simp] theorem State.setAllBright_savedColor (f : Channel → Word) (s : State) :
    (s.setAllBright f).savedColor = s.savedColor := rfl
@[simp] theorem State.setAllBright_pulseCh (f : Channel → Word) (s : State) :
    (s.setAllBright f).pulseCh = s.pulseCh := rfl
@[simp] theorem State.setAllBright_fxt (f : Channel → Word) (s : State) :
    (s.setAllBright f).fxt = s.fxt := rfl
@[simp] theorem State.setAllBright_lifecycle (f : Channel → Word) (s : State) :
    (s.setAllBright f).lifecycle = s.lifecycle := rfl
@[simp] theorem State.setAllBright_fault (f : Channel → Word) (s : State) :
    (s.setAllBright f).fault = s.fault := rfl
@[simp] theorem State.setAllBright_faultBy (f : Channel → Word) (s : State) :
    (s.setAllBright f).faultBy = s.faultBy := rfl
@[simp] theorem State.setAllBright_nowNs (f : Channel → Word) (s : State) :
    (s.setAllBright f).nowNs = s.nowNs := rfl
@[simp] theorem State.setAllBright_acquired (f : Channel → Word) (s : State) :
    (s.setAllBright f).acquired = s.acquired := rfl
@[simp] theorem State.setAllBright_generator (f : Channel → Word) (s : State) :
    (s.setAllBright f).generator = s.generator := rfl
@[simp] theorem State.setAllBright_pin (f : Channel → Word) (s : State) :
    (s.setAllBright f).pin = s.pin := rfl
@[simp] theorem State.setAllBright_log (f : Channel → Word) (s : State) :
    (s.setAllBright f).log = s.log := rfl
@[simp] theorem State.setAllBright_response (f : Channel → Word) (s : State) :
    (s.setAllBright f).response = s.response := rfl
@[simp] theorem State.setAllBright_cmdPort (f : Channel → Word) (s : State) :
    (s.setAllBright f).cmdPort = s.cmdPort := rfl
@[simp] theorem State.setAllBright_cfgPort (f : Channel → Word) (s : State) :
    (s.setAllBright f).cfgPort = s.cfgPort := rfl
@[simp] theorem State.setAllBright_oracle (f : Channel → Word) (s : State) :
    (s.setAllBright f).oracle = s.oracle := rfl
@[simp] theorem State.setAllBright_agenda (f : Channel → Word) (s : State) :
    (s.setAllBright f).agenda = s.agenda := rfl

/-! ### restoreColor -/

@[simp] theorem State.restoreColor_kind (s : State) :
    s.restoreColor.kind = s.kind := rfl
@[simp] theorem State.restoreColor_maxb (s : State) :
    s.restoreColor.maxb = s.maxb := rfl
@[simp] theorem State.restoreColor_bright (s : State) :
    s.restoreColor.bright = Bank.ofFn (fun c => hardwired (s.kind.get c) (s.savedColor.get c)) := rfl
@[simp] theorem State.restoreColor_lth (s : State) :
    s.restoreColor.lth = s.lth := rfl
@[simp] theorem State.restoreColor_levels (s : State) :
    s.restoreColor.levels = s.levels := rfl
@[simp] theorem State.restoreColor_swLevel (s : State) :
    s.restoreColor.swLevel = s.swLevel := rfl
@[simp] theorem State.restoreColor_swt (s : State) :
    s.restoreColor.swt = s.swt := rfl
@[simp] theorem State.restoreColor_periodNs (s : State) :
    s.restoreColor.periodNs = s.periodNs := rfl
@[simp] theorem State.restoreColor_activeMask (s : State) :
    s.restoreColor.activeMask = s.activeMask := rfl
@[simp] theorem State.restoreColor_fxStep (s : State) :
    s.restoreColor.fxStep = s.fxStep := rfl
@[simp] theorem State.restoreColor_phase (s : State) :
    s.restoreColor.phase = s.phase := rfl
@[simp] theorem State.restoreColor_savedColor (s : State) :
    s.restoreColor.savedColor = s.savedColor := rfl
@[simp] theorem State.restoreColor_pulseCh (s : State) :
    s.restoreColor.pulseCh = s.pulseCh := rfl
@[simp] theorem State.restoreColor_fxt (s : State) :
    s.restoreColor.fxt = s.fxt := rfl
@[simp] theorem State.restoreColor_lifecycle (s : State) :
    s.restoreColor.lifecycle = s.lifecycle := rfl
@[simp] theorem State.restoreColor_fault (s : State) :
    s.restoreColor.fault = s.fault := rfl
@[simp] theorem State.restoreColor_faultBy (s : State) :
    s.restoreColor.faultBy = s.faultBy := rfl
@[simp] theorem State.restoreColor_nowNs (s : State) :
    s.restoreColor.nowNs = s.nowNs := rfl
@[simp] theorem State.restoreColor_acquired (s : State) :
    s.restoreColor.acquired = s.acquired := rfl
@[simp] theorem State.restoreColor_generator (s : State) :
    s.restoreColor.generator = s.generator := rfl
@[simp] theorem State.restoreColor_pin (s : State) :
    s.restoreColor.pin = s.pin := rfl
@[simp] theorem State.restoreColor_log (s : State) :
    s.restoreColor.log = s.log := rfl
@[simp] theorem State.restoreColor_response (s : State) :
    s.restoreColor.response = s.response := rfl
@[simp] theorem State.restoreColor_cmdPort (s : State) :
    s.restoreColor.cmdPort = s.cmdPort := rfl
@[simp] theorem State.restoreColor_cfgPort (s : State) :
    s.restoreColor.cfgPort = s.cfgPort := rfl
@[simp] theorem State.restoreColor_oracle (s : State) :
    s.restoreColor.oracle = s.oracle := rfl
@[simp] theorem State.restoreColor_agenda (s : State) :
    s.restoreColor.agenda = s.agenda := rfl

/-! ### darken -/

@[simp] theorem State.darken_kind (s : State) :
    s.darken.kind = s.kind := rfl
@[simp] theorem State.darken_maxb (s : State) :
    s.darken.maxb = s.maxb := rfl
@[simp] theorem State.darken_bright (s : State) :
    s.darken.bright = Bank.ofFn (fun c => hardwired (s.kind.get c) 0) := rfl
@[simp] theorem State.darken_lth (s : State) :
    s.darken.lth = s.lth := rfl
@[simp] theorem State.darken_levels (s : State) :
    s.darken.levels = s.levels := rfl
@[simp] theorem State.darken_swLevel (s : State) :
    s.darken.swLevel = s.swLevel := rfl
@[simp] theorem State.darken_swt (s : State) :
    s.darken.swt = s.swt := rfl
@[simp] theorem State.darken_periodNs (s : State) :
    s.darken.periodNs = s.periodNs := rfl
@[simp] theorem State.darken_activeMask (s : State) :
    s.darken.activeMask = s.activeMask := rfl
@[simp] theorem State.darken_fxStep (s : State) :
    s.darken.fxStep = s.fxStep := rfl
@[simp] theorem State.darken_phase (s : State) :
    s.darken.phase = s.phase := rfl
@[simp] theorem State.darken_savedColor (s : State) :
    s.darken.savedColor = s.savedColor := rfl
@[simp] theorem State.darken_pulseCh (s : State) :
    s.darken.pulseCh = s.pulseCh := rfl
@[simp] theorem State.darken_fxt (s : State) :
    s.darken.fxt = s.fxt := rfl
@[simp] theorem State.darken_lifecycle (s : State) :
    s.darken.lifecycle = s.lifecycle := rfl
@[simp] theorem State.darken_fault (s : State) :
    s.darken.fault = s.fault := rfl
@[simp] theorem State.darken_faultBy (s : State) :
    s.darken.faultBy = s.faultBy := rfl
@[simp] theorem State.darken_nowNs (s : State) :
    s.darken.nowNs = s.nowNs := rfl
@[simp] theorem State.darken_acquired (s : State) :
    s.darken.acquired = s.acquired := rfl
@[simp] theorem State.darken_generator (s : State) :
    s.darken.generator = s.generator := rfl
@[simp] theorem State.darken_pin (s : State) :
    s.darken.pin = s.pin := rfl
@[simp] theorem State.darken_log (s : State) :
    s.darken.log = s.log := rfl
@[simp] theorem State.darken_response (s : State) :
    s.darken.response = s.response := rfl
@[simp] theorem State.darken_cmdPort (s : State) :
    s.darken.cmdPort = s.cmdPort := rfl
@[simp] theorem State.darken_cfgPort (s : State) :
    s.darken.cfgPort = s.cfgPort := rfl
@[simp] theorem State.darken_oracle (s : State) :
    s.darken.oracle = s.oracle := rfl
@[simp] theorem State.darken_agenda (s : State) :
    s.darken.agenda = s.agenda := rfl

/-! ### snapshot -/

@[simp] theorem State.snapshot_kind (s : State) :
    s.snapshot.kind = s.kind := rfl
@[simp] theorem State.snapshot_maxb (s : State) :
    s.snapshot.maxb = s.maxb := rfl
@[simp] theorem State.snapshot_bright (s : State) :
    s.snapshot.bright = s.bright := rfl
@[simp] theorem State.snapshot_lth (s : State) :
    s.snapshot.lth = s.lth := rfl
@[simp] theorem State.snapshot_levels (s : State) :
    s.snapshot.levels = s.levels := rfl
@[simp] theorem State.snapshot_swLevel (s : State) :
    s.snapshot.swLevel = s.swLevel := rfl
@[simp] theorem State.snapshot_swt (s : State) :
    s.snapshot.swt = s.swt := rfl
@[simp] theorem State.snapshot_periodNs (s : State) :
    s.snapshot.periodNs = s.periodNs := rfl
@[simp] theorem State.snapshot_activeMask (s : State) :
    s.snapshot.activeMask = s.activeMask := rfl
@[simp] theorem State.snapshot_fxStep (s : State) :
    s.snapshot.fxStep = s.fxStep := rfl
@[simp] theorem State.snapshot_phase (s : State) :
    s.snapshot.phase = s.phase := rfl
@[simp] theorem State.snapshot_savedColor (s : State) :
    s.snapshot.savedColor = Bank.ofFn s.brightOf := rfl
@[simp] theorem State.snapshot_pulseCh (s : State) :
    s.snapshot.pulseCh = s.pulseCh := rfl
@[simp] theorem State.snapshot_fxt (s : State) :
    s.snapshot.fxt = s.fxt := rfl
@[simp] theorem State.snapshot_lifecycle (s : State) :
    s.snapshot.lifecycle = s.lifecycle := rfl
@[simp] theorem State.snapshot_fault (s : State) :
    s.snapshot.fault = s.fault := rfl
@[simp] theorem State.snapshot_faultBy (s : State) :
    s.snapshot.faultBy = s.faultBy := rfl
@[simp] theorem State.snapshot_nowNs (s : State) :
    s.snapshot.nowNs = s.nowNs := rfl
@[simp] theorem State.snapshot_acquired (s : State) :
    s.snapshot.acquired = s.acquired := rfl
@[simp] theorem State.snapshot_generator (s : State) :
    s.snapshot.generator = s.generator := rfl
@[simp] theorem State.snapshot_pin (s : State) :
    s.snapshot.pin = s.pin := rfl
@[simp] theorem State.snapshot_log (s : State) :
    s.snapshot.log = s.log := rfl
@[simp] theorem State.snapshot_response (s : State) :
    s.snapshot.response = s.response := rfl
@[simp] theorem State.snapshot_cmdPort (s : State) :
    s.snapshot.cmdPort = s.cmdPort := rfl
@[simp] theorem State.snapshot_cfgPort (s : State) :
    s.snapshot.cfgPort = s.cfgPort := rfl
@[simp] theorem State.snapshot_oracle (s : State) :
    s.snapshot.oracle = s.oracle := rfl
@[simp] theorem State.snapshot_agenda (s : State) :
    s.snapshot.agenda = s.agenda := rfl

/-! ### setSwLevel -/

@[simp] theorem State.setSwLevel_kind (c : Channel) (l : Level) (s : State) :
    (s.setSwLevel c l).kind = s.kind := rfl
@[simp] theorem State.setSwLevel_maxb (c : Channel) (l : Level) (s : State) :
    (s.setSwLevel c l).maxb = s.maxb := rfl
@[simp] theorem State.setSwLevel_bright (c : Channel) (l : Level) (s : State) :
    (s.setSwLevel c l).bright = s.bright := rfl
@[simp] theorem State.setSwLevel_lth (c : Channel) (l : Level) (s : State) :
    (s.setSwLevel c l).lth = s.lth := rfl
@[simp] theorem State.setSwLevel_levels (c : Channel) (l : Level) (s : State) :
    (s.setSwLevel c l).levels = s.levels := rfl
@[simp] theorem State.setSwLevel_swLevel (c : Channel) (l : Level) (s : State) :
    (s.setSwLevel c l).swLevel = s.swLevel.set c l := rfl
@[simp] theorem State.setSwLevel_swt (c : Channel) (l : Level) (s : State) :
    (s.setSwLevel c l).swt = s.swt := rfl
@[simp] theorem State.setSwLevel_periodNs (c : Channel) (l : Level) (s : State) :
    (s.setSwLevel c l).periodNs = s.periodNs := rfl
@[simp] theorem State.setSwLevel_activeMask (c : Channel) (l : Level) (s : State) :
    (s.setSwLevel c l).activeMask = s.activeMask := rfl
@[simp] theorem State.setSwLevel_fxStep (c : Channel) (l : Level) (s : State) :
    (s.setSwLevel c l).fxStep = s.fxStep := rfl
@[simp] theorem State.setSwLevel_phase (c : Channel) (l : Level) (s : State) :
    (s.setSwLevel c l).phase = s.phase := rfl
@[simp] theorem State.setSwLevel_savedColor (c : Channel) (l : Level) (s : State) :
    (s.setSwLevel c l).savedColor = s.savedColor := rfl
@[simp] theorem State.setSwLevel_pulseCh (c : Channel) (l : Level) (s : State) :
    (s.setSwLevel c l).pulseCh = s.pulseCh := rfl
@[simp] theorem State.setSwLevel_fxt (c : Channel) (l : Level) (s : State) :
    (s.setSwLevel c l).fxt = s.fxt := rfl
@[simp] theorem State.setSwLevel_lifecycle (c : Channel) (l : Level) (s : State) :
    (s.setSwLevel c l).lifecycle = s.lifecycle := rfl
@[simp] theorem State.setSwLevel_fault (c : Channel) (l : Level) (s : State) :
    (s.setSwLevel c l).fault = s.fault := rfl
@[simp] theorem State.setSwLevel_faultBy (c : Channel) (l : Level) (s : State) :
    (s.setSwLevel c l).faultBy = s.faultBy := rfl
@[simp] theorem State.setSwLevel_nowNs (c : Channel) (l : Level) (s : State) :
    (s.setSwLevel c l).nowNs = s.nowNs := rfl
@[simp] theorem State.setSwLevel_acquired (c : Channel) (l : Level) (s : State) :
    (s.setSwLevel c l).acquired = s.acquired := rfl
@[simp] theorem State.setSwLevel_generator (c : Channel) (l : Level) (s : State) :
    (s.setSwLevel c l).generator = s.generator := rfl
@[simp] theorem State.setSwLevel_pin (c : Channel) (l : Level) (s : State) :
    (s.setSwLevel c l).pin = s.pin := rfl
@[simp] theorem State.setSwLevel_log (c : Channel) (l : Level) (s : State) :
    (s.setSwLevel c l).log = s.log := rfl
@[simp] theorem State.setSwLevel_response (c : Channel) (l : Level) (s : State) :
    (s.setSwLevel c l).response = s.response := rfl
@[simp] theorem State.setSwLevel_cmdPort (c : Channel) (l : Level) (s : State) :
    (s.setSwLevel c l).cmdPort = s.cmdPort := rfl
@[simp] theorem State.setSwLevel_cfgPort (c : Channel) (l : Level) (s : State) :
    (s.setSwLevel c l).cfgPort = s.cfgPort := rfl
@[simp] theorem State.setSwLevel_oracle (c : Channel) (l : Level) (s : State) :
    (s.setSwLevel c l).oracle = s.oracle := rfl
@[simp] theorem State.setSwLevel_agenda (c : Channel) (l : Level) (s : State) :
    (s.setSwLevel c l).agenda = s.agenda := rfl

/-! ### armSwt -/

@[simp] theorem State.armSwt_kind (c : Channel) (d : Time) (s : State) :
    (s.armSwt c d).kind = s.kind := rfl
@[simp] theorem State.armSwt_maxb (c : Channel) (d : Time) (s : State) :
    (s.armSwt c d).maxb = s.maxb := rfl
@[simp] theorem State.armSwt_bright (c : Channel) (d : Time) (s : State) :
    (s.armSwt c d).bright = s.bright := rfl
@[simp] theorem State.armSwt_lth (c : Channel) (d : Time) (s : State) :
    (s.armSwt c d).lth = s.lth := rfl
@[simp] theorem State.armSwt_levels (c : Channel) (d : Time) (s : State) :
    (s.armSwt c d).levels = s.levels := rfl
@[simp] theorem State.armSwt_swLevel (c : Channel) (d : Time) (s : State) :
    (s.armSwt c d).swLevel = s.swLevel := rfl
@[simp] theorem State.armSwt_swt (c : Channel) (d : Time) (s : State) :
    (s.armSwt c d).swt = s.swt.set c (Timer.arm d) := rfl
@[simp] theorem State.armSwt_periodNs (c : Channel) (d : Time) (s : State) :
    (s.armSwt c d).periodNs = s.periodNs := rfl
@[simp] theorem State.armSwt_activeMask (c : Channel) (d : Time) (s : State) :
    (s.armSwt c d).activeMask = s.activeMask := rfl
@[simp] theorem State.armSwt_fxStep (c : Channel) (d : Time) (s : State) :
    (s.armSwt c d).fxStep = s.fxStep := rfl
@[simp] theorem State.armSwt_phase (c : Channel) (d : Time) (s : State) :
    (s.armSwt c d).phase = s.phase := rfl
@[simp] theorem State.armSwt_savedColor (c : Channel) (d : Time) (s : State) :
    (s.armSwt c d).savedColor = s.savedColor := rfl
@[simp] theorem State.armSwt_pulseCh (c : Channel) (d : Time) (s : State) :
    (s.armSwt c d).pulseCh = s.pulseCh := rfl
@[simp] theorem State.armSwt_fxt (c : Channel) (d : Time) (s : State) :
    (s.armSwt c d).fxt = s.fxt := rfl
@[simp] theorem State.armSwt_lifecycle (c : Channel) (d : Time) (s : State) :
    (s.armSwt c d).lifecycle = s.lifecycle := rfl
@[simp] theorem State.armSwt_fault (c : Channel) (d : Time) (s : State) :
    (s.armSwt c d).fault = s.fault := rfl
@[simp] theorem State.armSwt_faultBy (c : Channel) (d : Time) (s : State) :
    (s.armSwt c d).faultBy = s.faultBy := rfl
@[simp] theorem State.armSwt_nowNs (c : Channel) (d : Time) (s : State) :
    (s.armSwt c d).nowNs = s.nowNs := rfl
@[simp] theorem State.armSwt_acquired (c : Channel) (d : Time) (s : State) :
    (s.armSwt c d).acquired = s.acquired := rfl
@[simp] theorem State.armSwt_generator (c : Channel) (d : Time) (s : State) :
    (s.armSwt c d).generator = s.generator := rfl
@[simp] theorem State.armSwt_pin (c : Channel) (d : Time) (s : State) :
    (s.armSwt c d).pin = s.pin := rfl
@[simp] theorem State.armSwt_log (c : Channel) (d : Time) (s : State) :
    (s.armSwt c d).log = s.log := rfl
@[simp] theorem State.armSwt_response (c : Channel) (d : Time) (s : State) :
    (s.armSwt c d).response = s.response := rfl
@[simp] theorem State.armSwt_cmdPort (c : Channel) (d : Time) (s : State) :
    (s.armSwt c d).cmdPort = s.cmdPort := rfl
@[simp] theorem State.armSwt_cfgPort (c : Channel) (d : Time) (s : State) :
    (s.armSwt c d).cfgPort = s.cfgPort := rfl
@[simp] theorem State.armSwt_oracle (c : Channel) (d : Time) (s : State) :
    (s.armSwt c d).oracle = s.oracle := rfl
@[simp] theorem State.armSwt_agenda (c : Channel) (d : Time) (s : State) :
    (s.armSwt c d).agenda = s.agenda := rfl

/-! ### disarmSwt -/

@[simp] theorem State.disarmSwt_kind (c : Channel) (s : State) :
    (s.disarmSwt c).kind = s.kind := rfl
@[simp] theorem State.disarmSwt_maxb (c : Channel) (s : State) :
    (s.disarmSwt c).maxb = s.maxb := rfl
@[simp] theorem State.disarmSwt_bright (c : Channel) (s : State) :
    (s.disarmSwt c).bright = s.bright := rfl
@[simp] theorem State.disarmSwt_lth (c : Channel) (s : State) :
    (s.disarmSwt c).lth = s.lth := rfl
@[simp] theorem State.disarmSwt_levels (c : Channel) (s : State) :
    (s.disarmSwt c).levels = s.levels := rfl
@[simp] theorem State.disarmSwt_swLevel (c : Channel) (s : State) :
    (s.disarmSwt c).swLevel = s.swLevel := rfl
@[simp] theorem State.disarmSwt_swt (c : Channel) (s : State) :
    (s.disarmSwt c).swt = s.swt.set c (s.swt.get c).disarm := rfl
@[simp] theorem State.disarmSwt_periodNs (c : Channel) (s : State) :
    (s.disarmSwt c).periodNs = s.periodNs := rfl
@[simp] theorem State.disarmSwt_activeMask (c : Channel) (s : State) :
    (s.disarmSwt c).activeMask = s.activeMask := rfl
@[simp] theorem State.disarmSwt_fxStep (c : Channel) (s : State) :
    (s.disarmSwt c).fxStep = s.fxStep := rfl
@[simp] theorem State.disarmSwt_phase (c : Channel) (s : State) :
    (s.disarmSwt c).phase = s.phase := rfl
@[simp] theorem State.disarmSwt_savedColor (c : Channel) (s : State) :
    (s.disarmSwt c).savedColor = s.savedColor := rfl
@[simp] theorem State.disarmSwt_pulseCh (c : Channel) (s : State) :
    (s.disarmSwt c).pulseCh = s.pulseCh := rfl
@[simp] theorem State.disarmSwt_fxt (c : Channel) (s : State) :
    (s.disarmSwt c).fxt = s.fxt := rfl
@[simp] theorem State.disarmSwt_lifecycle (c : Channel) (s : State) :
    (s.disarmSwt c).lifecycle = s.lifecycle := rfl
@[simp] theorem State.disarmSwt_fault (c : Channel) (s : State) :
    (s.disarmSwt c).fault = s.fault := rfl
@[simp] theorem State.disarmSwt_faultBy (c : Channel) (s : State) :
    (s.disarmSwt c).faultBy = s.faultBy := rfl
@[simp] theorem State.disarmSwt_nowNs (c : Channel) (s : State) :
    (s.disarmSwt c).nowNs = s.nowNs := rfl
@[simp] theorem State.disarmSwt_acquired (c : Channel) (s : State) :
    (s.disarmSwt c).acquired = s.acquired := rfl
@[simp] theorem State.disarmSwt_generator (c : Channel) (s : State) :
    (s.disarmSwt c).generator = s.generator := rfl
@[simp] theorem State.disarmSwt_pin (c : Channel) (s : State) :
    (s.disarmSwt c).pin = s.pin := rfl
@[simp] theorem State.disarmSwt_log (c : Channel) (s : State) :
    (s.disarmSwt c).log = s.log := rfl
@[simp] theorem State.disarmSwt_response (c : Channel) (s : State) :
    (s.disarmSwt c).response = s.response := rfl
@[simp] theorem State.disarmSwt_cmdPort (c : Channel) (s : State) :
    (s.disarmSwt c).cmdPort = s.cmdPort := rfl
@[simp] theorem State.disarmSwt_cfgPort (c : Channel) (s : State) :
    (s.disarmSwt c).cfgPort = s.cfgPort := rfl
@[simp] theorem State.disarmSwt_oracle (c : Channel) (s : State) :
    (s.disarmSwt c).oracle = s.oracle := rfl
@[simp] theorem State.disarmSwt_agenda (c : Channel) (s : State) :
    (s.disarmSwt c).agenda = s.agenda := rfl

/-! ### armFxt -/

@[simp] theorem State.armFxt_kind (k : Effect) (d : Time) (s : State) :
    (s.armFxt k d).kind = s.kind := rfl
@[simp] theorem State.armFxt_maxb (k : Effect) (d : Time) (s : State) :
    (s.armFxt k d).maxb = s.maxb := rfl
@[simp] theorem State.armFxt_bright (k : Effect) (d : Time) (s : State) :
    (s.armFxt k d).bright = s.bright := rfl
@[simp] theorem State.armFxt_lth (k : Effect) (d : Time) (s : State) :
    (s.armFxt k d).lth = s.lth := rfl
@[simp] theorem State.armFxt_levels (k : Effect) (d : Time) (s : State) :
    (s.armFxt k d).levels = s.levels := rfl
@[simp] theorem State.armFxt_swLevel (k : Effect) (d : Time) (s : State) :
    (s.armFxt k d).swLevel = s.swLevel := rfl
@[simp] theorem State.armFxt_swt (k : Effect) (d : Time) (s : State) :
    (s.armFxt k d).swt = s.swt := rfl
@[simp] theorem State.armFxt_periodNs (k : Effect) (d : Time) (s : State) :
    (s.armFxt k d).periodNs = s.periodNs := rfl
@[simp] theorem State.armFxt_activeMask (k : Effect) (d : Time) (s : State) :
    (s.armFxt k d).activeMask = s.activeMask := rfl
@[simp] theorem State.armFxt_fxStep (k : Effect) (d : Time) (s : State) :
    (s.armFxt k d).fxStep = s.fxStep := rfl
@[simp] theorem State.armFxt_phase (k : Effect) (d : Time) (s : State) :
    (s.armFxt k d).phase = s.phase := rfl
@[simp] theorem State.armFxt_savedColor (k : Effect) (d : Time) (s : State) :
    (s.armFxt k d).savedColor = s.savedColor := rfl
@[simp] theorem State.armFxt_pulseCh (k : Effect) (d : Time) (s : State) :
    (s.armFxt k d).pulseCh = s.pulseCh := rfl
@[simp] theorem State.armFxt_fxt (k : Effect) (d : Time) (s : State) :
    (s.armFxt k d).fxt = s.fxt.set k (Timer.arm d) := rfl
@[simp] theorem State.armFxt_lifecycle (k : Effect) (d : Time) (s : State) :
    (s.armFxt k d).lifecycle = s.lifecycle := rfl
@[simp] theorem State.armFxt_fault (k : Effect) (d : Time) (s : State) :
    (s.armFxt k d).fault = s.fault := rfl
@[simp] theorem State.armFxt_faultBy (k : Effect) (d : Time) (s : State) :
    (s.armFxt k d).faultBy = s.faultBy := rfl
@[simp] theorem State.armFxt_nowNs (k : Effect) (d : Time) (s : State) :
    (s.armFxt k d).nowNs = s.nowNs := rfl
@[simp] theorem State.armFxt_acquired (k : Effect) (d : Time) (s : State) :
    (s.armFxt k d).acquired = s.acquired := rfl
@[simp] theorem State.armFxt_generator (k : Effect) (d : Time) (s : State) :
    (s.armFxt k d).generator = s.generator := rfl
@[simp] theorem State.armFxt_pin (k : Effect) (d : Time) (s : State) :
    (s.armFxt k d).pin = s.pin := rfl
@[simp] theorem State.armFxt_log (k : Effect) (d : Time) (s : State) :
    (s.armFxt k d).log = s.log := rfl
@[simp] theorem State.armFxt_response (k : Effect) (d : Time) (s : State) :
    (s.armFxt k d).response = s.response := rfl
@[simp] theorem State.armFxt_cmdPort (k : Effect) (d : Time) (s : State) :
    (s.armFxt k d).cmdPort = s.cmdPort := rfl
@[simp] theorem State.armFxt_cfgPort (k : Effect) (d : Time) (s : State) :
    (s.armFxt k d).cfgPort = s.cfgPort := rfl
@[simp] theorem State.armFxt_oracle (k : Effect) (d : Time) (s : State) :
    (s.armFxt k d).oracle = s.oracle := rfl
@[simp] theorem State.armFxt_agenda (k : Effect) (d : Time) (s : State) :
    (s.armFxt k d).agenda = s.agenda := rfl

/-! ### disarmFxt -/

@[simp] theorem State.disarmFxt_kind (k : Effect) (s : State) :
    (s.disarmFxt k).kind = s.kind := rfl
@[simp] theorem State.disarmFxt_maxb (k : Effect) (s : State) :
    (s.disarmFxt k).maxb = s.maxb := rfl
@[simp] theorem State.disarmFxt_bright (k : Effect) (s : State) :
    (s.disarmFxt k).bright = s.bright := rfl
@[simp] theorem State.disarmFxt_lth (k : Effect) (s : State) :
    (s.disarmFxt k).lth = s.lth := rfl
@[simp] theorem State.disarmFxt_levels (k : Effect) (s : State) :
    (s.disarmFxt k).levels = s.levels := rfl
@[simp] theorem State.disarmFxt_swLevel (k : Effect) (s : State) :
    (s.disarmFxt k).swLevel = s.swLevel := rfl
@[simp] theorem State.disarmFxt_swt (k : Effect) (s : State) :
    (s.disarmFxt k).swt = s.swt := rfl
@[simp] theorem State.disarmFxt_periodNs (k : Effect) (s : State) :
    (s.disarmFxt k).periodNs = s.periodNs := rfl
@[simp] theorem State.disarmFxt_activeMask (k : Effect) (s : State) :
    (s.disarmFxt k).activeMask = s.activeMask := rfl
@[simp] theorem State.disarmFxt_fxStep (k : Effect) (s : State) :
    (s.disarmFxt k).fxStep = s.fxStep := rfl
@[simp] theorem State.disarmFxt_phase (k : Effect) (s : State) :
    (s.disarmFxt k).phase = s.phase := rfl
@[simp] theorem State.disarmFxt_savedColor (k : Effect) (s : State) :
    (s.disarmFxt k).savedColor = s.savedColor := rfl
@[simp] theorem State.disarmFxt_pulseCh (k : Effect) (s : State) :
    (s.disarmFxt k).pulseCh = s.pulseCh := rfl
@[simp] theorem State.disarmFxt_fxt (k : Effect) (s : State) :
    (s.disarmFxt k).fxt = s.fxt.set k (s.fxt.get k).disarm := rfl
@[simp] theorem State.disarmFxt_lifecycle (k : Effect) (s : State) :
    (s.disarmFxt k).lifecycle = s.lifecycle := rfl
@[simp] theorem State.disarmFxt_fault (k : Effect) (s : State) :
    (s.disarmFxt k).fault = s.fault := rfl
@[simp] theorem State.disarmFxt_faultBy (k : Effect) (s : State) :
    (s.disarmFxt k).faultBy = s.faultBy := rfl
@[simp] theorem State.disarmFxt_nowNs (k : Effect) (s : State) :
    (s.disarmFxt k).nowNs = s.nowNs := rfl
@[simp] theorem State.disarmFxt_acquired (k : Effect) (s : State) :
    (s.disarmFxt k).acquired = s.acquired := rfl
@[simp] theorem State.disarmFxt_generator (k : Effect) (s : State) :
    (s.disarmFxt k).generator = s.generator := rfl
@[simp] theorem State.disarmFxt_pin (k : Effect) (s : State) :
    (s.disarmFxt k).pin = s.pin := rfl
@[simp] theorem State.disarmFxt_log (k : Effect) (s : State) :
    (s.disarmFxt k).log = s.log := rfl
@[simp] theorem State.disarmFxt_response (k : Effect) (s : State) :
    (s.disarmFxt k).response = s.response := rfl
@[simp] theorem State.disarmFxt_cmdPort (k : Effect) (s : State) :
    (s.disarmFxt k).cmdPort = s.cmdPort := rfl
@[simp] theorem State.disarmFxt_cfgPort (k : Effect) (s : State) :
    (s.disarmFxt k).cfgPort = s.cfgPort := rfl
@[simp] theorem State.disarmFxt_oracle (k : Effect) (s : State) :
    (s.disarmFxt k).oracle = s.oracle := rfl
@[simp] theorem State.disarmFxt_agenda (k : Effect) (s : State) :
    (s.disarmFxt k).agenda = s.agenda := rfl

/-! ### disarmAll -/

@[simp] theorem State.disarmAll_kind (s : State) :
    s.disarmAll.kind = s.kind := rfl
@[simp] theorem State.disarmAll_maxb (s : State) :
    s.disarmAll.maxb = s.maxb := rfl
@[simp] theorem State.disarmAll_bright (s : State) :
    s.disarmAll.bright = s.bright := rfl
@[simp] theorem State.disarmAll_lth (s : State) :
    s.disarmAll.lth = s.lth := rfl
@[simp] theorem State.disarmAll_levels (s : State) :
    s.disarmAll.levels = s.levels := rfl
@[simp] theorem State.disarmAll_swLevel (s : State) :
    s.disarmAll.swLevel = s.swLevel := rfl
@[simp] theorem State.disarmAll_swt (s : State) :
    s.disarmAll.swt = Bank.ofFn (fun c => (s.swt.get c).disarm) := rfl
@[simp] theorem State.disarmAll_periodNs (s : State) :
    s.disarmAll.periodNs = s.periodNs := rfl
@[simp] theorem State.disarmAll_activeMask (s : State) :
    s.disarmAll.activeMask = s.activeMask := rfl
@[simp] theorem State.disarmAll_fxStep (s : State) :
    s.disarmAll.fxStep = s.fxStep := rfl
@[simp] theorem State.disarmAll_phase (s : State) :
    s.disarmAll.phase = s.phase := rfl
@[simp] theorem State.disarmAll_savedColor (s : State) :
    s.disarmAll.savedColor = s.savedColor := rfl
@[simp] theorem State.disarmAll_pulseCh (s : State) :
    s.disarmAll.pulseCh = s.pulseCh := rfl
@[simp] theorem State.disarmAll_fxt (s : State) :
    s.disarmAll.fxt = FxBank.ofFn (fun k => (s.fxt.get k).disarm) := rfl
@[simp] theorem State.disarmAll_lifecycle (s : State) :
    s.disarmAll.lifecycle = s.lifecycle := rfl
@[simp] theorem State.disarmAll_fault (s : State) :
    s.disarmAll.fault = s.fault := rfl
@[simp] theorem State.disarmAll_faultBy (s : State) :
    s.disarmAll.faultBy = s.faultBy := rfl
@[simp] theorem State.disarmAll_nowNs (s : State) :
    s.disarmAll.nowNs = s.nowNs := rfl
@[simp] theorem State.disarmAll_acquired (s : State) :
    s.disarmAll.acquired = s.acquired := rfl
@[simp] theorem State.disarmAll_generator (s : State) :
    s.disarmAll.generator = s.generator := rfl
@[simp] theorem State.disarmAll_pin (s : State) :
    s.disarmAll.pin = s.pin := rfl
@[simp] theorem State.disarmAll_log (s : State) :
    s.disarmAll.log = s.log := rfl
@[simp] theorem State.disarmAll_response (s : State) :
    s.disarmAll.response = s.response := rfl
@[simp] theorem State.disarmAll_cmdPort (s : State) :
    s.disarmAll.cmdPort = s.cmdPort := rfl
@[simp] theorem State.disarmAll_cfgPort (s : State) :
    s.disarmAll.cfgPort = s.cfgPort := rfl
@[simp] theorem State.disarmAll_oracle (s : State) :
    s.disarmAll.oracle = s.oracle := rfl
@[simp] theorem State.disarmAll_agenda (s : State) :
    s.disarmAll.agenda = s.agenda := rfl

/-! ### emit -/

@[simp] theorem State.emit_kind (c : Channel) (e : PortEvent) (s : State) :
    (s.emit c e).kind = s.kind := rfl
@[simp] theorem State.emit_maxb (c : Channel) (e : PortEvent) (s : State) :
    (s.emit c e).maxb = s.maxb := rfl
@[simp] theorem State.emit_bright (c : Channel) (e : PortEvent) (s : State) :
    (s.emit c e).bright = s.bright := rfl
@[simp] theorem State.emit_lth (c : Channel) (e : PortEvent) (s : State) :
    (s.emit c e).lth = s.lth := rfl
@[simp] theorem State.emit_levels (c : Channel) (e : PortEvent) (s : State) :
    (s.emit c e).levels = s.levels := rfl
@[simp] theorem State.emit_swLevel (c : Channel) (e : PortEvent) (s : State) :
    (s.emit c e).swLevel = s.swLevel := rfl
@[simp] theorem State.emit_swt (c : Channel) (e : PortEvent) (s : State) :
    (s.emit c e).swt = s.swt := rfl
@[simp] theorem State.emit_periodNs (c : Channel) (e : PortEvent) (s : State) :
    (s.emit c e).periodNs = s.periodNs := rfl
@[simp] theorem State.emit_activeMask (c : Channel) (e : PortEvent) (s : State) :
    (s.emit c e).activeMask = s.activeMask := rfl
@[simp] theorem State.emit_fxStep (c : Channel) (e : PortEvent) (s : State) :
    (s.emit c e).fxStep = s.fxStep := rfl
@[simp] theorem State.emit_phase (c : Channel) (e : PortEvent) (s : State) :
    (s.emit c e).phase = s.phase := rfl
@[simp] theorem State.emit_savedColor (c : Channel) (e : PortEvent) (s : State) :
    (s.emit c e).savedColor = s.savedColor := rfl
@[simp] theorem State.emit_pulseCh (c : Channel) (e : PortEvent) (s : State) :
    (s.emit c e).pulseCh = s.pulseCh := rfl
@[simp] theorem State.emit_fxt (c : Channel) (e : PortEvent) (s : State) :
    (s.emit c e).fxt = s.fxt := rfl
@[simp] theorem State.emit_lifecycle (c : Channel) (e : PortEvent) (s : State) :
    (s.emit c e).lifecycle = s.lifecycle := rfl
@[simp] theorem State.emit_fault (c : Channel) (e : PortEvent) (s : State) :
    (s.emit c e).fault = s.fault := rfl
@[simp] theorem State.emit_faultBy (c : Channel) (e : PortEvent) (s : State) :
    (s.emit c e).faultBy = s.faultBy := rfl
@[simp] theorem State.emit_nowNs (c : Channel) (e : PortEvent) (s : State) :
    (s.emit c e).nowNs = s.nowNs := rfl
@[simp] theorem State.emit_acquired (c : Channel) (e : PortEvent) (s : State) :
    (s.emit c e).acquired = s.acquired := rfl
@[simp] theorem State.emit_generator (c : Channel) (e : PortEvent) (s : State) :
    (s.emit c e).generator = s.generator.set c (generatorAfter (s.generator.get c) e) := rfl
@[simp] theorem State.emit_pin (c : Channel) (e : PortEvent) (s : State) :
    (s.emit c e).pin = s.pin.set c (pinAfter (s.pin.get c) e) := rfl
@[simp] theorem State.emit_log (c : Channel) (e : PortEvent) (s : State) :
    (s.emit c e).log = s.log ++ [{ time := s.nowNs, channel := c, event := e }] := rfl
@[simp] theorem State.emit_response (c : Channel) (e : PortEvent) (s : State) :
    (s.emit c e).response = s.response := rfl
@[simp] theorem State.emit_cmdPort (c : Channel) (e : PortEvent) (s : State) :
    (s.emit c e).cmdPort = s.cmdPort := rfl
@[simp] theorem State.emit_cfgPort (c : Channel) (e : PortEvent) (s : State) :
    (s.emit c e).cfgPort = s.cfgPort := rfl
@[simp] theorem State.emit_oracle (c : Channel) (e : PortEvent) (s : State) :
    (s.emit c e).oracle = s.oracle := rfl
@[simp] theorem State.emit_agenda (c : Channel) (e : PortEvent) (s : State) :
    (s.emit c e).agenda = s.agenda := rfl

/-! ### raiseFault -/

@[simp] theorem State.raiseFault_kind (f : FaultCause) (i : Instr) (s : State) :
    (s.raiseFault f i).kind = s.kind := rfl
@[simp] theorem State.raiseFault_maxb (f : FaultCause) (i : Instr) (s : State) :
    (s.raiseFault f i).maxb = s.maxb := rfl
@[simp] theorem State.raiseFault_bright (f : FaultCause) (i : Instr) (s : State) :
    (s.raiseFault f i).bright = s.bright := rfl
@[simp] theorem State.raiseFault_lth (f : FaultCause) (i : Instr) (s : State) :
    (s.raiseFault f i).lth = s.lth := rfl
@[simp] theorem State.raiseFault_levels (f : FaultCause) (i : Instr) (s : State) :
    (s.raiseFault f i).levels = s.levels := rfl
@[simp] theorem State.raiseFault_swLevel (f : FaultCause) (i : Instr) (s : State) :
    (s.raiseFault f i).swLevel = s.swLevel := rfl
@[simp] theorem State.raiseFault_swt (f : FaultCause) (i : Instr) (s : State) :
    (s.raiseFault f i).swt = s.swt := rfl
@[simp] theorem State.raiseFault_periodNs (f : FaultCause) (i : Instr) (s : State) :
    (s.raiseFault f i).periodNs = s.periodNs := rfl
@[simp] theorem State.raiseFault_activeMask (f : FaultCause) (i : Instr) (s : State) :
    (s.raiseFault f i).activeMask = s.activeMask := rfl
@[simp] theorem State.raiseFault_fxStep (f : FaultCause) (i : Instr) (s : State) :
    (s.raiseFault f i).fxStep = s.fxStep := rfl
@[simp] theorem State.raiseFault_phase (f : FaultCause) (i : Instr) (s : State) :
    (s.raiseFault f i).phase = s.phase := rfl
@[simp] theorem State.raiseFault_savedColor (f : FaultCause) (i : Instr) (s : State) :
    (s.raiseFault f i).savedColor = s.savedColor := rfl
@[simp] theorem State.raiseFault_pulseCh (f : FaultCause) (i : Instr) (s : State) :
    (s.raiseFault f i).pulseCh = s.pulseCh := rfl
@[simp] theorem State.raiseFault_fxt (f : FaultCause) (i : Instr) (s : State) :
    (s.raiseFault f i).fxt = s.fxt := rfl
@[simp] theorem State.raiseFault_lifecycle (f : FaultCause) (i : Instr) (s : State) :
    (s.raiseFault f i).lifecycle = s.lifecycle := rfl
@[simp] theorem State.raiseFault_fault (f : FaultCause) (i : Instr) (s : State) :
    (s.raiseFault f i).fault = f := rfl
@[simp] theorem State.raiseFault_faultBy (f : FaultCause) (i : Instr) (s : State) :
    (s.raiseFault f i).faultBy = some i := rfl
@[simp] theorem State.raiseFault_nowNs (f : FaultCause) (i : Instr) (s : State) :
    (s.raiseFault f i).nowNs = s.nowNs := rfl
@[simp] theorem State.raiseFault_acquired (f : FaultCause) (i : Instr) (s : State) :
    (s.raiseFault f i).acquired = s.acquired := rfl
@[simp] theorem State.raiseFault_generator (f : FaultCause) (i : Instr) (s : State) :
    (s.raiseFault f i).generator = s.generator := rfl
@[simp] theorem State.raiseFault_pin (f : FaultCause) (i : Instr) (s : State) :
    (s.raiseFault f i).pin = s.pin := rfl
@[simp] theorem State.raiseFault_log (f : FaultCause) (i : Instr) (s : State) :
    (s.raiseFault f i).log = s.log := rfl
@[simp] theorem State.raiseFault_response (f : FaultCause) (i : Instr) (s : State) :
    (s.raiseFault f i).response = s.response := rfl
@[simp] theorem State.raiseFault_cmdPort (f : FaultCause) (i : Instr) (s : State) :
    (s.raiseFault f i).cmdPort = s.cmdPort := rfl
@[simp] theorem State.raiseFault_cfgPort (f : FaultCause) (i : Instr) (s : State) :
    (s.raiseFault f i).cfgPort = s.cfgPort := rfl
@[simp] theorem State.raiseFault_oracle (f : FaultCause) (i : Instr) (s : State) :
    (s.raiseFault f i).oracle = s.oracle := rfl
@[simp] theorem State.raiseFault_agenda (f : FaultCause) (i : Instr) (s : State) :
    (s.raiseFault f i).agenda = s.agenda := rfl

end Sys2Proof.Machine
end

