-- ==== Sys2Proof/Laws/Ops.lean ====
section
/-! SUPPORT. The laws of the shared operations: operands, procedures, the ending of commands and events, and
lists of emitted events. -/

namespace Sys2Proof.Machine

/-! ## Operands -/

@[simp] theorem Channel.ofField_field (c : Channel) : Channel.ofField c.field = some c := by
  cases c <;> decide

theorem Channel.ofField_isSome_iff (ch : BitVec 4) : (Channel.ofField ch).isSome = true ↔ ch.toNat < 4 := by
  revert ch; decide

@[simp] theorem Effect.ofField_field (k : Effect) : Effect.ofField k.field = some k := by
  cases k <;> decide

@[simp] theorem hardwired_unassigned (v : Word) : hardwired .unassigned v = 0 := rfl

@[simp] theorem hardwired_zero (k : Kind) : hardwired k 0#32 = 0#32 := by cases k <;> rfl

theorem hardwired_of_assigned {k : Kind} (h : k ≠ .unassigned) (v : Word) : hardwired k v = v := by
  cases k <;> first | rfl | exact absurd rfl h

@[simp] theorem hardwired_hardwired (k : Kind) (v : Word) : hardwired k (hardwired k v) = hardwired k v := by
  cases k <;> rfl

theorem hardwired_le {k : Kind} {v w : Word} (h : v ≤ w) : hardwired k v ≤ hardwired k w := by
  cases k <;> first | exact h | exact BitVec.le_refl _

theorem clampTo_le (m v : Word) : clampTo m v ≤ m := by
  unfold clampTo
  split
  · assumption
  · exact BitVec.le_refl m

@[simp] theorem clampTo_zero (m : Word) : clampTo m 0#32 = 0#32 := by
  simp [clampTo, BitVec.le_def]

theorem clampTo_toNat (m v : Word) : (clampTo m v).toNat = min v.toNat m.toNat := by
  simp only [clampTo, BitVec.le_def]
  split <;> omega

theorem brightOf_assigned {s : State} {c : Channel} (h : s.kind.get c ≠ .unassigned) :
    s.brightOf c = s.bright.get c := hardwired_of_assigned h _

theorem maxbOf_assigned {s : State} {c : Channel} (h : s.kind.get c ≠ .unassigned) :
    s.maxbOf c = s.maxb.get c := hardwired_of_assigned h _

theorem lthOf_assigned {s : State} {c : Channel} (h : s.kind.get c ≠ .unassigned) :
    s.lthOf c = s.lth.get c := hardwired_of_assigned h _

/-- Reading BRIGHT[c] after writing it gives the value, 0 for an Unassigned channel. -/
@[simp] theorem brightOf_setBright_same (c : Channel) (v : Word) (s : State) :
    (s.setBright c v).brightOf c = hardwired (s.kind.get c) v := by simp [State.brightOf]

/-- Writing BRIGHT[c] leaves every other channel's brightness alone. -/
@[simp] theorem brightOf_setBright_ne {c d : Channel} (v : Word) (s : State) (h : d ≠ c) :
    (s.setBright c v).brightOf d = s.brightOf d := by simp [State.brightOf, h]

@[simp] theorem brightOf_setAllBright (f : Channel → Word) (s : State) (c : Channel) :
    (s.setAllBright f).brightOf c = hardwired (s.kind.get c) (f c) := by simp [State.brightOf]

@[simp] theorem brightOf_restoreColor (s : State) (c : Channel) :
    s.restoreColor.brightOf c = hardwired (s.kind.get c) (s.savedColor.get c) := by
  simp [State.brightOf]

@[simp] theorem brightOf_darken (s : State) (c : Channel) : s.darken.brightOf c = 0 := by
  simp [State.brightOf]

/-! ## Flags -/

theorem maskHas_effectBit (k l : Effect) : maskHas (effectBit k) l = decide (k = l) := by
  cases k <;> cases l <;> decide

@[simp] theorem maskHas_zero (k : Effect) : maskHas 0#4 k = false := by cases k <;> decide

@[simp] theorem maskClear_effectBit (k : Effect) : maskClear (effectBit k) k = 0#4 := by cases k <;> decide

theorem effectBit_ne_zero (k : Effect) : effectBit k ≠ 0 := by cases k <;> decide

theorem effectBit_injective {k l : Effect} (h : effectBit k = effectBit l) : k = l := by
  revert h; cases k <;> cases l <;> decide

@[simp] theorem activeEffect_effectBit (k : Effect) : activeEffect (effectBit k) = some k := by
  cases k <;> decide

theorem activeEffect_some {m : BitVec 4} {k : Effect} (h : activeEffect m = some k) : m = effectBit k := by
  revert m k; decide +revert

/-! ## Procedures and endings -/

/-- The state a procedure leaves, faulted or not. -/
def Proc.state : Proc → State
  | .ok s => s
  | .stop _ s => s

@[simp] theorem Proc.state_ok (s : State) : (Proc.ok s).state = s := rfl
@[simp] theorem Proc.state_stop (f : FaultCause) (s : State) : (Proc.stop f s).state = s := rfl
@[simp] theorem Proc.andThen_ok (s : State) (f : State → Proc) : (Proc.ok s).andThen f = f s := rfl
@[simp] theorem Proc.andThen_stop (c : FaultCause) (s : State) (f : State → Proc) :
    (Proc.stop c s).andThen f = .stop c s := rfl

/-- A sequence that ends well ended its first procedure well. -/
theorem Proc.andThen_eq_ok {p : Proc} {f : State → Proc} {t : State} (h : p.andThen f = .ok t) :
    ∃ u, p = .ok u ∧ f u = .ok t := by
  cases p with
  | ok u => exact ⟨u, rfl, h⟩
  | stop c u => cases h

@[simp] theorem endCommand_ok (i : Instr) (s : State) : endCommand i (.ok s) = .next (s.respond .ok 0) := rfl
@[simp] theorem endCommand_stop (i : Instr) (f : FaultCause) (s : State) :
    endCommand i (.stop f s) = .next { s.raiseFault f i with response := none } := rfl
@[simp] theorem endEvent_ok (i : Instr) (s : State) : endEvent i (.ok s) = .next s := rfl
@[simp] theorem endEvent_stop (i : Instr) (f : FaultCause) (s : State) :
    endEvent i (.stop f s) = .next (s.raiseFault f i) := rfl

/-- A rejected command answers a next state with the error status and result 0, nothing else changed. -/
theorem reject_eq (st : Status) (s : State) :
    reject st s = .next { s with response := some { status := st, result := 0 } } := rfl

/-! ## Events in a row -/

@[simp] theorem State.emitAll_nil (s : State) : s.emitAll [] = s := rfl
@[simp] theorem State.emitAll_cons (ce : Channel × PortEvent) (es : List (Channel × PortEvent)) (s : State) :
    s.emitAll (ce :: es) = (s.emit ce.1 ce.2).emitAll es := rfl

@[simp] theorem State.stamped_nil (s : State) : s.stamped [] = [] := rfl
@[simp] theorem State.stamped_cons (s : State) (ce : Channel × PortEvent) (es : List (Channel × PortEvent)) :
    s.stamped (ce :: es) = { time := s.nowNs, channel := ce.1, event := ce.2 } :: s.stamped es := rfl
@[simp] theorem State.stamped_append (s : State) (es fs : List (Channel × PortEvent)) :
    s.stamped (es ++ fs) = s.stamped es ++ s.stamped fs := List.map_append

/-- Emitting a list of events appends them to the log, each stamped with NOW_NS. -/
theorem State.emitAll_log (es : List (Channel × PortEvent)) (s : State) :
    (s.emitAll es).log = s.log ++ s.stamped es := by
  induction es generalizing s with
  | nil => simp
  | cons ce es ih => simp [ih, State.stamped]

/-! ## The log and the ports after a list of events -/

@[simp] theorem portEvents_nil (c : Channel) : portEvents c [] = [] := rfl
@[simp] theorem portEvents_append (c : Channel) (es fs : List (Channel × PortEvent)) :
    portEvents c (es ++ fs) = portEvents c es ++ portEvents c fs := by simp [portEvents]
theorem portEvents_cons (c : Channel) (ce : Channel × PortEvent) (es : List (Channel × PortEvent)) :
    portEvents c (ce :: es) = if ce.1 = c then ce.2 :: portEvents c es else portEvents c es := by
  by_cases h : ce.1 = c <;> simp [portEvents, h]

theorem State.Emitted.refl (s : State) : s.Emitted [] s := ⟨by simp, fun _ => rfl, fun _ => rfl⟩

theorem State.Emitted.trans {s t u : State} {es fs : List (Channel × PortEvent)} (h : s.Emitted es t)
    (g : t.Emitted fs u) (hn : t.nowNs = s.nowNs) : s.Emitted (es ++ fs) u where
  log := by rw [g.log, h.log]; simp [State.stamped, hn]
  generators c := by rw [g.generators, h.generators, portEvents_append, List.foldl_append]
  pins c := by rw [g.pins, h.pins, portEvents_append, List.foldl_append]

/-- States that agree on the log, the time and the ports emit alike. -/
theorem State.Emitted.congr {s s' t t' : State} {es : List (Channel × PortEvent)} (h : s.Emitted es t)
    (hl : s'.log = s.log) (hn : s'.nowNs = s.nowNs) (hg : s'.generator = s.generator) (hp : s'.pin = s.pin)
    (tl : t'.log = t.log) (tg : t'.generator = t.generator) (tp : t'.pin = t.pin) : s'.Emitted es t' where
  log := by rw [tl, h.log, hl]; simp [State.stamped, hn]
  generators c := by rw [tg, h.generators, hg]
  pins c := by rw [tp, h.pins, hp]

theorem State.emit_emitted (c : Channel) (e : PortEvent) (s : State) : s.Emitted [(c, e)] (s.emit c e) where
  log := rfl
  generators d := by
    by_cases h : c = d
    · subst h; simp [portEvents]
    · simp [portEvents, h, Bank.get_set_ne _ _ (Ne.symm h)]
  pins d := by
    by_cases h : c = d
    · subst h; simp [portEvents]
    · simp [portEvents, h, Bank.get_set_ne _ _ (Ne.symm h)]

/-- Emitting a list of events: they enter the log, and each port is what its events make of it. -/
theorem State.emitAll_emitted (es : List (Channel × PortEvent)) (s : State) : s.Emitted es (s.emitAll es) := by
  induction es generalizing s with
  | nil => exact .refl s
  | cons ce es ih => exact (s.emit_emitted ce.1 ce.2).trans (ih (s.emit ce.1 ce.2)) rfl

@[simp] theorem State.emitAll_kind (es : List (Channel × PortEvent)) (s : State) :
    (s.emitAll es).kind = s.kind := by
  induction es generalizing s with
  | nil => rfl
  | cons ce es ih => simp [ih]
@[simp] theorem State.emitAll_maxb (es : List (Channel × PortEvent)) (s : State) :
    (s.emitAll es).maxb = s.maxb := by
  induction es generalizing s with
  | nil => rfl
  | cons ce es ih => simp [ih]
@[simp] theorem State.emitAll_bright (es : List (Channel × PortEvent)) (s : State) :
    (s.emitAll es).bright = s.bright := by
  induction es generalizing s with
  | nil => rfl
  | cons ce es ih => simp [ih]
@[simp] theorem State.emitAll_lth (es : List (Channel × PortEvent)) (s : State) :
    (s.emitAll es).lth = s.lth := by
  induction es generalizing s with
  | nil => rfl
  | cons ce es ih => simp [ih]
@[simp] theorem State.emitAll_levels (es : List (Channel × PortEvent)) (s : State) :
    (s.emitAll es).levels = s.levels := by
  induction es generalizing s with
  | nil => rfl
  | cons ce es ih => simp [ih]
@[simp] theorem State.emitAll_swLevel (es : List (Channel × PortEvent)) (s : State) :
    (s.emitAll es).swLevel = s.swLevel := by
  induction es generalizing s with
  | nil => rfl
  | cons ce es ih => simp [ih]
@[simp] theorem State.emitAll_swt (es : List (Channel × PortEvent)) (s : State) :
    (s.emitAll es).swt = s.swt := by
  induction es generalizing s with
  | nil => rfl
  | cons ce es ih => simp [ih]
@[simp] theorem State.emitAll_periodNs (es : List (Channel × PortEvent)) (s : State) :
    (s.emitAll es).periodNs = s.periodNs := by
  induction es generalizing s with
  | nil => rfl
  | cons ce es ih => simp [ih]
@[simp] theorem State.emitAll_activeMask (es : List (Channel × PortEvent)) (s : State) :
    (s.emitAll es).activeMask = s.activeMask := by
  induction es generalizing s with
  | nil => rfl
  | cons ce es ih => simp [ih]
@[simp] theorem State.emitAll_fxStep (es : List (Channel × PortEvent)) (s : State) :
    (s.emitAll es).fxStep = s.fxStep := by
  induction es generalizing s with
  | nil => rfl
  | cons ce es ih => simp [ih]
@[simp] theorem State.emitAll_phase (es : List (Channel × PortEvent)) (s : State) :
    (s.emitAll es).phase = s.phase := by
  induction es generalizing s with
  | nil => rfl
  | cons ce es ih => simp [ih]
@[simp] theorem State.emitAll_savedColor (es : List (Channel × PortEvent)) (s : State) :
    (s.emitAll es).savedColor = s.savedColor := by
  induction es generalizing s with
  | nil => rfl
  | cons ce es ih => simp [ih]
@[simp] theorem State.emitAll_pulseCh (es : List (Channel × PortEvent)) (s : State) :
    (s.emitAll es).pulseCh = s.pulseCh := by
  induction es generalizing s with
  | nil => rfl
  | cons ce es ih => simp [ih]
@[simp] theorem State.emitAll_fxt (es : List (Channel × PortEvent)) (s : State) :
    (s.emitAll es).fxt = s.fxt := by
  induction es generalizing s with
  | nil => rfl
  | cons ce es ih => simp [ih]
@[simp] theorem State.emitAll_lifecycle (es : List (Channel × PortEvent)) (s : State) :
    (s.emitAll es).lifecycle = s.lifecycle := by
  induction es generalizing s with
  | nil => rfl
  | cons ce es ih => simp [ih]
@[simp] theorem State.emitAll_fault (es : List (Channel × PortEvent)) (s : State) :
    (s.emitAll es).fault = s.fault := by
  induction es generalizing s with
  | nil => rfl
  | cons ce es ih => simp [ih]
@[simp] theorem State.emitAll_faultBy (es : List (Channel × PortEvent)) (s : State) :
    (s.emitAll es).faultBy = s.faultBy := by
  induction es generalizing s with
  | nil => rfl
  | cons ce es ih => simp [ih]
@[simp] theorem State.emitAll_nowNs (es : List (Channel × PortEvent)) (s : State) :
    (s.emitAll es).nowNs = s.nowNs := by
  induction es generalizing s with
  | nil => rfl
  | cons ce es ih => simp [ih]
@[simp] theorem State.emitAll_acquired (es : List (Channel × PortEvent)) (s : State) :
    (s.emitAll es).acquired = s.acquired := by
  induction es generalizing s with
  | nil => rfl
  | cons ce es ih => simp [ih]
@[simp] theorem State.emitAll_response (es : List (Channel × PortEvent)) (s : State) :
    (s.emitAll es).response = s.response := by
  induction es generalizing s with
  | nil => rfl
  | cons ce es ih => simp [ih]
@[simp] theorem State.emitAll_cmdPort (es : List (Channel × PortEvent)) (s : State) :
    (s.emitAll es).cmdPort = s.cmdPort := by
  induction es generalizing s with
  | nil => rfl
  | cons ce es ih => simp [ih]
@[simp] theorem State.emitAll_cfgPort (es : List (Channel × PortEvent)) (s : State) :
    (s.emitAll es).cfgPort = s.cfgPort := by
  induction es generalizing s with
  | nil => rfl
  | cons ce es ih => simp [ih]
@[simp] theorem State.emitAll_oracle (es : List (Channel × PortEvent)) (s : State) :
    (s.emitAll es).oracle = s.oracle := by
  induction es generalizing s with
  | nil => rfl
  | cons ce es ih => simp [ih]
@[simp] theorem State.emitAll_agenda (es : List (Channel × PortEvent)) (s : State) :
    (s.emitAll es).agenda = s.agenda := by
  induction es generalizing s with
  | nil => rfl
  | cons ce es ih => simp [ih]

end Sys2Proof.Machine
end

