-- ==== Sys2Proof/Laws/Update.lean ====
section
/-! SUPPORT. Everything the update path can do (40_channel_update.md): what ChannelUpdate and UpdateStatus
leave alone whether or not a table read faults, and their closed form when every table read is in range. -/

namespace Sys2Proof.Machine

/-! ## What a refresh can change -/

/-- `t` differs from `s` only as a refresh may make it differ: SWT[c] is as it was or as ArmSoft leaves it,
the log has grown by events of assigned channels stamped NOW_NS, which the ports follow, and only
HardwarePWM generators moved. -/
structure Refreshed (s t : State) : Prop where
  same       : t = { s with swt := t.swt, generator := t.generator, log := t.log }
  timers     : ∀ c, t.swt.get c = s.swt.get c ∨ t.swt.get c = s.softTimerAfter c
  events     : ∃ es, s.Emitted es t ∧ ∀ ce ∈ es, s.kind.get ce.1 ≠ .unassigned
  generators : ∀ c, s.kind.get c ≠ .hardwarePWM → t.generator.get c = s.generator.get c

theorem Refreshed.refl (s : State) : Refreshed s s where
  same := rfl
  timers _ := .inl rfl
  events := ⟨[], .refl s, by simp⟩
  generators _ _ := rfl

section Fields
variable {s t : State} (h : Refreshed s t)
include h
theorem Refreshed.kind : t.kind = s.kind := by rw [h.same]
theorem Refreshed.maxb : t.maxb = s.maxb := by rw [h.same]
theorem Refreshed.bright : t.bright = s.bright := by rw [h.same]
theorem Refreshed.lth : t.lth = s.lth := by rw [h.same]
theorem Refreshed.levels : t.levels = s.levels := by rw [h.same]
theorem Refreshed.swLevel : t.swLevel = s.swLevel := by rw [h.same]
theorem Refreshed.periodNs : t.periodNs = s.periodNs := by rw [h.same]
theorem Refreshed.activeMask : t.activeMask = s.activeMask := by rw [h.same]
theorem Refreshed.fxStep : t.fxStep = s.fxStep := by rw [h.same]
theorem Refreshed.phase : t.phase = s.phase := by rw [h.same]
theorem Refreshed.savedColor : t.savedColor = s.savedColor := by rw [h.same]
theorem Refreshed.pulseCh : t.pulseCh = s.pulseCh := by rw [h.same]
theorem Refreshed.fxt : t.fxt = s.fxt := by rw [h.same]
theorem Refreshed.lifecycle : t.lifecycle = s.lifecycle := by rw [h.same]
theorem Refreshed.fault : t.fault = s.fault := by rw [h.same]
theorem Refreshed.faultBy : t.faultBy = s.faultBy := by rw [h.same]
theorem Refreshed.nowNs : t.nowNs = s.nowNs := by rw [h.same]
theorem Refreshed.acquired : t.acquired = s.acquired := by rw [h.same]
theorem Refreshed.pin : t.pin = s.pin := by rw [h.same]
theorem Refreshed.response : t.response = s.response := by rw [h.same]
theorem Refreshed.inputs : t.inputs = s.inputs := by rw [h.same]; rfl
theorem Refreshed.brightOf (c : Channel) : t.brightOf c = s.brightOf c := by
  rw [State.brightOf, State.brightOf, h.kind, h.bright]
theorem Refreshed.maxbOf (c : Channel) : t.maxbOf c = s.maxbOf c := by
  rw [State.maxbOf, State.maxbOf, h.kind, h.maxb]
end Fields

/-- A timer that ArmSoft has seen is left alone by the next ArmSoft. -/
theorem softTimerAfter_stable {s t : State} {c : Channel} (hk : t.kind = s.kind) (hn : t.nowNs = s.nowNs)
    (h : t.swt.get c = s.swt.get c ∨ t.swt.get c = s.softTimerAfter c) :
    t.softTimerAfter c = s.softTimerAfter c := by
  rcases h with h | h
  · simp only [State.softTimerAfter, hk, hn, h]
  · rw [State.softTimerAfter, hk, hn, h, State.softTimerAfter]
    split
    · simp
    · simp_all

theorem Refreshed.trans {s t u : State} (h : Refreshed s t) (g : Refreshed t u) : Refreshed s u where
  same := by
    have hs := h.same
    have gs := g.same
    rw [gs, hs]
  timers c := by
    rcases g.timers c with e | e
    · rw [e]; exact h.timers c
    · rw [e, softTimerAfter_stable h.kind h.nowNs (h.timers c)]; exact .inr rfl
  events := by
    obtain ⟨es, h1, h2⟩ := h.events
    obtain ⟨fs, g1, g2⟩ := g.events
    refine ⟨es ++ fs, h1.trans g1 h.nowNs, ?_⟩
    · intro ce hce
      rcases List.mem_append.mp hce with hm | hm
      · exact h2 ce hm
      · have := g2 ce hm
        rwa [h.kind] at this
  generators c hc := by
    rw [g.generators c (by rw [h.kind]; exact hc), h.generators c hc]

/-- ChannelUpdate with any brightness refreshes, whether or not its table read faults. -/
theorem driveChannel_refreshed (c : Channel) (b : Word) (s : State) :
    Refreshed s (driveChannel c b s).state := by
  unfold driveChannel
  split
  · exact Refreshed.refl s
  · rename_i hk
    have hgen : ∀ es : List (Channel × PortEvent), (∀ ce ∈ es, ce.1 = c) →
        (∀ ce ∈ es, ∀ p, pinAfter p ce.2 = p) → Refreshed s (s.emitAll es) := by
      intro es h1 h2
      refine ⟨?_, fun d => .inl (by simp), ⟨es, s.emitAll_emitted es, ?_⟩, ?_⟩
      · induction es generalizing s with
        | nil => rfl
        | cons ce es ih =>
          have hp : (s.emit ce.1 ce.2).pin = s.pin := by
            simp [h2 ce (by simp)]
          rw [State.emitAll_cons, ih (s.emit ce.1 ce.2) hk (fun x hx => h1 x (by simp [hx]))
            (fun x hx => h2 x (by simp [hx]))]
          simp only [State.emit]
          rw [State.emit] at hp
          simp only at hp
          rw [hp]
      · intro ce hce; rw [h1 ce hce, hk]; decide
      · intro d hd
        have hdc : d ≠ c := by rintro rfl; exact hd hk
        clear h2
        induction es generalizing s with
        | nil => rfl
        | cons ce es ih =>
          rw [State.emitAll_cons, ih (s.emit ce.1 ce.2) hk (fun x hx => h1 x (by simp [hx])) hd]
          rw [State.emit_generator, Bank.get_set_ne]
          rw [h1 ce (by simp)]; exact hdc
    split
    · exact hgen _ (by simp) (by simp [pinAfter])
    · split
      · exact Refreshed.refl s
      · exact hgen _ (by simp) (by simp [pinAfter])
  · rename_i hk
    simp only [Proc.state_ok, State.emitAll_cons, State.emitAll_nil, armSoft]
    split
    · rename_i ha
      refine ⟨?_, fun d => .inl (by simp), ⟨[(c, .notifyAfter b)], (State.emit_emitted c _ _).congr rfl rfl rfl rfl rfl rfl rfl, by simp [hk]⟩, ?_⟩
      · simp [State.emit, pinAfter]
      · intro d _
        simp [generatorAfter]
    · rename_i ha
      refine ⟨?_, ?_, ⟨[(c, .notifyAfter b)], (State.emit_emitted c _ _).congr rfl rfl rfl rfl rfl rfl rfl, by simp [hk]⟩, ?_⟩
      · simp [State.emit, State.armSwt, pinAfter]
      · intro d
        by_cases hd : d = c
        · subst hd
          right
          simp [State.softTimerAfter, hk, ha, Timer.arm]
        · left; simp [hd]
      · intro d _
        simp [generatorAfter]

theorem channelUpdate_refreshed (c : Channel) (s : State) : Refreshed s (channelUpdate c s).state :=
  driveChannel_refreshed c _ s

theorem Refreshed.andThen {s : State} {p : Proc} {f : State → Proc} (hp : Refreshed s p.state)
    (hf : ∀ t, Refreshed t (f t).state) : Refreshed s (p.andThen f).state := by
  cases p with
  | ok t => exact hp.trans (hf t)
  | stop _ _ => exact hp

/-- UpdateStatus refreshes, whether or not a table read faults. -/
theorem updateStatus_refreshed (s : State) : Refreshed s (updateStatus s).state :=
  (((channelUpdate_refreshed .red s).andThen (channelUpdate_refreshed .green)).andThen
    (channelUpdate_refreshed .blue)).andThen (channelUpdate_refreshed .white)

/-- UpdateStatus, when it does not fault, refreshes. -/
theorem updateStatus_ok {s t : State} (h : updateStatus s = .ok t) : Refreshed s t := by
  have := updateStatus_refreshed s
  rwa [h] at this

/-! ## The closed form -/

/-- The state with its soft-PWM timers replaced. -/
def State.withSwt (b : Bank Timer) (s : State) : State := { s with swt := b }

@[simp] theorem State.withSwt_swt (b : Bank Timer) (s : State) : (s.withSwt b).swt = b := rfl
@[simp] theorem State.withSwt_kind (b : Bank Timer) (s : State) : (s.withSwt b).kind = s.kind := rfl
@[simp] theorem State.withSwt_maxb (b : Bank Timer) (s : State) : (s.withSwt b).maxb = s.maxb := rfl
@[simp] theorem State.withSwt_bright (b : Bank Timer) (s : State) : (s.withSwt b).bright = s.bright := rfl
@[simp] theorem State.withSwt_lth (b : Bank Timer) (s : State) : (s.withSwt b).lth = s.lth := rfl
@[simp] theorem State.withSwt_levels (b : Bank Timer) (s : State) : (s.withSwt b).levels = s.levels := rfl
@[simp] theorem State.withSwt_periodNs (b : Bank Timer) (s : State) :
    (s.withSwt b).periodNs = s.periodNs := rfl
@[simp] theorem State.withSwt_nowNs (b : Bank Timer) (s : State) : (s.withSwt b).nowNs = s.nowNs := rfl
@[simp] theorem State.withSwt_withSwt (a b : Bank Timer) (s : State) :
    (s.withSwt a).withSwt b = s.withSwt b := rfl

/-- SWT[c] set to what it already holds. -/
theorem withSwt_self (s : State) : s.withSwt s.swt = s := rfl

/-- Arming (or not) the soft-PWM timer of channel c, then emitting its events: what ChannelUpdate does
when its table read is in range. -/
def channelRefreshed (c : Channel) (s : State) : State :=
  (s.withSwt (s.swt.set c (s.softTimerAfter c))).emitAll (s.channelEvents c (updateValue c s))

/-- What UpdateStatus does when its table reads are in range. -/
def refreshed (s : State) : State :=
  (s.withSwt (Bank.ofFn s.softTimerAfter)).emitAll s.refreshEvents

theorem emitAll_append (es fs : List (Channel × PortEvent)) (s : State) :
    s.emitAll (es ++ fs) = (s.emitAll es).emitAll fs := List.foldl_append

/-- Emitting and touching the soft-PWM timers commute. -/
theorem emitAll_swt_comm (es : List (Channel × PortEvent)) (b : Bank Timer) (s : State) :
    (s.withSwt b).emitAll es = (s.emitAll es).withSwt b := by
  induction es generalizing s with
  | nil => rfl
  | cons ce es ih => exact ih (s.emit ce.1 ce.2)

theorem updateValue_le (c : Channel) (s : State) : updateValue c s ≤ s.maxbOf c := clampTo_le _ _

theorem levelsRead_of_cover {s : State} {c : Channel} {t : List Word} {b : Word}
    (hc : s.TablesCover) (ht : s.levelsOf c = some t) (hb : b ≤ s.maxbOf c) :
    levelsRead t b = some (t.getD b.toNat 0) := by
  have h1 := hc c t ht
  have h2 : b.toNat < t.length := by
    have := BitVec.le_def.mp hb
    omega
  simp [levelsRead, List.getD, h2]

theorem channelEvents_unassigned {s : State} {c : Channel} (h : s.kind.get c = .unassigned) (b : Word) :
    s.channelEvents c b = [] := by simp [State.channelEvents, h]

theorem channelEvents_soft {s : State} {c : Channel} (h : s.kind.get c = .softwarePWM) (b : Word) :
    s.channelEvents c b = [(c, .notifyAfter b)] := by simp [State.channelEvents, h]

theorem channelEvents_hard_zero {s : State} {c : Channel} (h : s.kind.get c = .hardwarePWM) :
    s.channelEvents c 0 = [(c, .pwmDisable), (c, .notifyAfter 0)] := by simp [State.channelEvents, h]

theorem channelEvents_hard {s : State} {c : Channel} (h : s.kind.get c = .hardwarePWM) {b : Word}
    (hb : b ≠ 0) :
    s.channelEvents c b =
      [(c, .pwmSet (dutyWord (s.lthOf c) s.periodNs (s.maxbOf c) (s.rawValue c b)) s.periodNs),
        (c, .pwmEnable), (c, .notifyAfter b)] := by
  have hb' : ¬ b = 0#32 := hb
  simp [State.channelEvents, h, hb', dutyWord, dutyNs]

/-- The raw lookup of a covered table is in range. -/
theorem rawOf_covered {s : State} (hc : s.TablesCover) {c : Channel} {b : Word} (hb : b ≤ s.maxbOf c) :
    rawOf c b s = some (s.rawValue c b) := by
  unfold rawOf State.rawValue
  cases ht : s.levelsOf c with
  | none => rfl
  | some t => exact levelsRead_of_cover hc ht hb

theorem set_swt_self (s : State) (c : Channel) : s.withSwt (s.swt.set c (s.swt.get c)) = s := by
  rw [Bank.set_get, withSwt_self]

theorem channelUpdate_covered {s : State} (hc : s.TablesCover) (c : Channel) :
    channelUpdate c s = .ok (channelRefreshed c s) := by
  have hb := updateValue_le c s
  unfold channelUpdate channelRefreshed driveChannel
  split
  · rename_i hk
    have hs : s.softTimerAfter c = s.swt.get c := by simp [State.softTimerAfter, hk]
    rw [channelEvents_unassigned hk, hs, set_swt_self, State.emitAll_nil]
  · rename_i hk
    have hs : s.softTimerAfter c = s.swt.get c := by simp [State.softTimerAfter, hk]
    rw [hs, set_swt_self]
    split
    · rename_i h0
      rw [h0, channelEvents_hard_zero hk]
    · rename_i h0
      rw [rawOf_covered hc hb, channelEvents_hard hk h0]
  · rename_i hk
    rw [channelEvents_soft hk]
    unfold armSoft State.softTimerAfter
    cases ha : (s.swt.get c).armed with
    | true => simp [withSwt_self]
    | false => simp [hk, State.armSwt, Timer.arm, State.withSwt]

/-- The events of a channel do not depend on the log, the ports or the timers. -/
theorem channelEvents_after (es : List (Channel × PortEvent)) (bk : Bank Timer) (s : State) (c : Channel)
    (b : Word) : ((s.emitAll es).withSwt bk).channelEvents c b = s.channelEvents c b := by
  simp [State.channelEvents, State.lthOf, State.maxbOf, State.rawValue, State.levelsOf]

/-- The mapper's brightness does not depend on the log, the ports or the timers. -/
theorem updateValue_after (es : List (Channel × PortEvent)) (bk : Bank Timer) (s : State) (c : Channel) :
    updateValue c ((s.emitAll es).withSwt bk) = updateValue c s := by
  simp [updateValue, State.brightOf, State.maxbOf]

theorem softTimerAfter_after (es : List (Channel × PortEvent)) (bk : Bank Timer) (s : State) (c : Channel)
    (h : bk.get c = s.swt.get c) :
    ((s.emitAll es).withSwt bk).softTimerAfter c = s.softTimerAfter c := by
  simp [State.softTimerAfter, h]

theorem tablesCover_after (es : List (Channel × PortEvent)) (bk : Bank Timer) {s : State} (h : s.TablesCover) :
    ((s.emitAll es).withSwt bk).TablesCover := by
  intro c t
  simpa [State.levelsOf, State.maxbOf] using h c t

/-- One more ChannelUpdate after a list of events. -/
theorem channelRefreshed_after (es : List (Channel × PortEvent)) (bk : Bank Timer) (s : State) (c : Channel)
    (h : bk.get c = s.swt.get c) :
    channelRefreshed c ((s.emitAll es).withSwt bk) =
      (s.emitAll (es ++ s.channelEvents c (updateValue c s))).withSwt
        (bk.set c (s.softTimerAfter c)) := by
  rw [channelRefreshed, channelEvents_after, updateValue_after, softTimerAfter_after es bk s c h,
    emitAll_append, emitAll_swt_comm, State.withSwt_swt, emitAll_swt_comm, State.withSwt_withSwt]

/-- UpdateStatus with every table read in range: the timers as four ArmSofts leave them, and the events of
one full refresh, all computed from the state before it. -/
theorem updateStatus_covered {s : State} (hc : s.TablesCover) : updateStatus s = .ok (refreshed s) := by
  have k1 : channelRefreshed .red s = (s.emitAll (s.channelEvents .red (updateValue .red s))).withSwt
      (s.swt.set .red (s.softTimerAfter .red)) := emitAll_swt_comm _ _ _
  have k2 := channelRefreshed_after (s.channelEvents .red (updateValue .red s))
    (s.swt.set .red (s.softTimerAfter .red)) s .green (by simp)
  have k3 := channelRefreshed_after
    (s.channelEvents .red (updateValue .red s) ++ s.channelEvents .green (updateValue .green s))
    ((s.swt.set .red (s.softTimerAfter .red)).set .green (s.softTimerAfter .green)) s .blue (by simp)
  have k4 := channelRefreshed_after
    (s.channelEvents .red (updateValue .red s) ++ s.channelEvents .green (updateValue .green s) ++
      s.channelEvents .blue (updateValue .blue s))
    (((s.swt.set .red (s.softTimerAfter .red)).set .green (s.softTimerAfter .green)).set .blue
      (s.softTimerAfter .blue)) s .white (by simp)
  rw [updateStatus, channelUpdate_covered hc, k1, Proc.andThen_ok,
    channelUpdate_covered (tablesCover_after _ _ hc), k2, Proc.andThen_ok,
    channelUpdate_covered (tablesCover_after _ _ hc), k3, Proc.andThen_ok,
    channelUpdate_covered (tablesCover_after _ _ hc), k4, refreshed, emitAll_swt_comm, State.refreshEvents]
  simp only [allChannels, List.flatMap_cons, List.flatMap_nil, List.append_nil, List.append_assoc]
  rfl

theorem refreshed_refreshed {s : State} (hc : s.TablesCover) : Refreshed s (refreshed s) :=
  updateStatus_ok (updateStatus_covered hc)

/-- A full refresh appends its events to the log, stamped NOW_NS. -/
theorem refreshed_log (s : State) : (refreshed s).log = s.log ++ s.stamped s.refreshEvents := by
  rw [refreshed, State.emitAll_log]; rfl

/-- A full refresh leaves each generator and pin as its events do. -/
theorem refreshed_emitted (s : State) : s.Emitted s.refreshEvents (refreshed s) :=
  ((s.withSwt (Bank.ofFn s.softTimerAfter)).emitAll_emitted s.refreshEvents).congr rfl rfl rfl rfl rfl rfl rfl

/-- A full refresh leaves each SWT[c] as ArmSoft does. -/
theorem refreshed_swt (s : State) : (refreshed s).swt = Bank.ofFn s.softTimerAfter := by
  rw [refreshed, State.emitAll_swt, State.withSwt_swt]

end Sys2Proof.Machine
end

