-- ==== Sys2Proof/Laws/Exec.lean ====
section
/-! SUPPORT. What one instruction and one step can do, said once: `Moves` lists every way an instruction can
change the state, with its guards, and `exec_moves` and `step_cases` say that nothing else happens. -/

namespace Sys2Proof.Machine

/-! ## Endings -/

/-- `t` is `u` but for the response and the record of a fault. -/
structure Answered (u t : State) : Prop where
  same : t = { u with response := t.response, fault := t.fault, faultBy := t.faultBy }

theorem Answered.refl (u : State) : Answered u u := ⟨rfl⟩

section Fields
variable {u t : State} (h : Answered u t)
include h
theorem Answered.kind : t.kind = u.kind := by rw [h.same]
theorem Answered.maxb : t.maxb = u.maxb := by rw [h.same]
theorem Answered.bright : t.bright = u.bright := by rw [h.same]
theorem Answered.lth : t.lth = u.lth := by rw [h.same]
theorem Answered.levels : t.levels = u.levels := by rw [h.same]
theorem Answered.swLevel : t.swLevel = u.swLevel := by rw [h.same]
theorem Answered.swt : t.swt = u.swt := by rw [h.same]
theorem Answered.periodNs : t.periodNs = u.periodNs := by rw [h.same]
theorem Answered.activeMask : t.activeMask = u.activeMask := by rw [h.same]
theorem Answered.fxStep : t.fxStep = u.fxStep := by rw [h.same]
theorem Answered.phase : t.phase = u.phase := by rw [h.same]
theorem Answered.savedColor : t.savedColor = u.savedColor := by rw [h.same]
theorem Answered.pulseCh : t.pulseCh = u.pulseCh := by rw [h.same]
theorem Answered.fxt : t.fxt = u.fxt := by rw [h.same]
theorem Answered.lifecycle : t.lifecycle = u.lifecycle := by rw [h.same]
theorem Answered.nowNs : t.nowNs = u.nowNs := by rw [h.same]
theorem Answered.acquired : t.acquired = u.acquired := by rw [h.same]
theorem Answered.generator : t.generator = u.generator := by rw [h.same]
theorem Answered.pin : t.pin = u.pin := by rw [h.same]
theorem Answered.log : t.log = u.log := by rw [h.same]
theorem Answered.inputs : t.inputs = u.inputs := by rw [h.same]; rfl
end Fields

theorem reject_next {st : Status} {s t : State} (h : reject st s = .next t) :
    t = s.respond st 0 := by cases h; rfl

theorem reject_answered {st : Status} {s t : State} (h : reject st s = .next t) : Answered s t := by
  cases h; exact ⟨rfl⟩

/-- A command ends well, or in the fault its procedure ran into. -/
theorem endCommand_cases {i : Instr} {p : Proc} {t : State} (h : endCommand i p = .next t) :
    (∃ u, p = .ok u ∧ t = u.respond .ok 0) ∨
    (∃ f u, p = .stop f u ∧ t = { u.raiseFault f i with response := none }) := by
  cases p with
  | ok u => cases h; exact .inl ⟨u, rfl, rfl⟩
  | stop f u => cases h; exact .inr ⟨f, u, rfl, rfl⟩

theorem endCommand_answered {i : Instr} {p : Proc} {t : State} (h : endCommand i p = .next t) :
    Answered p.state t := by
  cases p <;> (cases h; exact ⟨rfl⟩)

theorem endEvent_answered {i : Instr} {p : Proc} {t : State} (h : endEvent i p = .next t) :
    Answered p.state t := by
  cases p <;> (cases h; exact ⟨rfl⟩)

theorem endCommand_is_next (i : Instr) (p : Proc) : ∃ t, endCommand i p = .next t := by
  cases p <;> exact ⟨_, rfl⟩

theorem endEvent_is_next (i : Instr) (p : Proc) : ∃ t, endEvent i p = .next t := by
  cases p <;> exact ⟨_, rfl⟩

/-! ## The state a deactivation refreshes -/

/-- Deactivate(k) before its refresh: the bit cleared, the saved colour restored (42_effects.md rule R92). -/
def restoredFrom (k : Effect) (s : State) : State :=
  ({ s with activeMask := maskClear s.activeMask k }).restoreColor

theorem deactivate_refreshed (k : Effect) (s : State) :
    Refreshed (restoredFrom k s) (deactivate k s).state := updateStatus_refreshed _

/-- The state a tick's body leaves, for each effect (42_effects.md rules R96, R97, R98, R100). -/
inductive BodyMoves : Effect → State → State → Prop
  | pulse {s : State} {c : Channel} {v : Word} (target : s.pulseCh = some c)
      (entry : pulseRead s.fxStep.toNat = some v) :
      BodyMoves .pulse s { s.setBright c (clampTo (s.maxbOf c) v) with
        fxStep := if s.fxStep = 74 then 0 else s.fxStep + 1 }
  | blink (s : State) :
      BodyMoves .blink s { (if s.fxStep = 0 then s.darken else s.restoreColor) with fxStep := 1 - s.fxStep }
  | heartbeat (s : State) :
      BodyMoves .heartbeat s { (if s.fxStep.toNat % 2 = 0 then s.darken else s.restoreColor) with
        fxStep := BitVec.ofNat 32 ((s.fxStep.toNat + 1) % 4) }
  | rainbow {s t : State} (h : rainbowBody s = .ok t) : BodyMoves .rainbow s t

/-- INIT's commit with the off-writes, before LIFECYCLE is set (70_reset_and_hazards.md rule R139). -/
def initialised (cfg : ConfigRecord) (s : State) : State :=
  allChannels.foldl (fun u c => driveOff c u) (commitConfig cfg s)

/-- SHUTDOWN before LIFECYCLE is set (43_facade.md rule R111). -/
def turnedOff (s : State) : State :=
  allChannels.foldl (fun t c => releaseChannel c t)
    (allChannels.foldl (fun t c => forceOff c t) { s.disarmAll with activeMask := 0 })

/-! ## Every way an instruction can change the state -/

/-- `Moves i s u`: instruction i takes s to u, up to the response and the record of a fault. -/
inductive Moves : Instr → State → State → Prop
  /-- A command that is rejected, a read, a DEACT of an inactive effect, a FIRE of no soft channel. -/
  | keep (i : Instr) (s : State) : Moves i s s
  | setb {ch : BitVec 4} {v : Word} {c : Channel} {s u : State} (running : s.lifecycle = .running)
      (channel : Channel.ofField ch = some c) (assigned : s.kind.get c ≠ .unassigned)
      (bound : v ≤ s.maxbOf c) (refresh : Refreshed (s.setBright c v) u) : Moves (.setb ch v) s u
  | update {s u : State} (running : s.lifecycle = .running) (refresh : Refreshed s u) : Moves .update s u
  | act {ch ef : BitVec 4} {k : Effect} {target : Option Channel} {s : State}
      (running : s.lifecycle = .running) (effect : Effect.ofField ef = some k)
      (aim : actTarget k ch s = some target) (idle : s.activeMask = 0) :
      Moves (.act ch ef) s (activate k target s)
  | actReplace {ch ef : BitVec 4} {k a : Effect} {target : Option Channel} {s u : State}
      (running : s.lifecycle = .running) (effect : Effect.ofField ef = some k)
      (aim : actTarget k ch s = some target) (active : s.activeMask = effectBit a)
      (refresh : Refreshed (restoredFrom a s) u) : Moves (.act ch ef) s (activate k target u)
  /-- ACT whose refresh faults on a table read. -/
  | actStop {ch ef : BitVec 4} {a : Effect} {s u : State} (running : s.lifecycle = .running)
      (active : s.activeMask = effectBit a) (refresh : Refreshed (restoredFrom a s) u) :
      Moves (.act ch ef) s u
  | deact {ef : BitVec 4} {k : Effect} {s u : State} (running : s.lifecycle = .running)
      (effect : Effect.ofField ef = some k) (active : maskHas s.activeMask k = true)
      (refresh : Refreshed (restoredFrom k s) u) : Moves (.deact ef) s u
  | shutdown {s : State} (running : s.lifecycle = .running) :
      Moves .shutdown s { turnedOff s with lifecycle := .shutdown }
  | initFailed {cfg : ConfigRecord} {s u : State} (idle : s.lifecycle ≠ .running)
      (valid : validConfig cfg = true) (handles : acquire (cfg.zip s.oracle.toList) [] s = (false, u)) :
      Moves (.init cfg) s u
  | init {cfg : ConfigRecord} {s u : State} (idle : s.lifecycle ≠ .running)
      (valid : validConfig cfg = true) (handles : acquire (cfg.zip s.oracle.toList) [] s = (true, u)) :
      Moves (.init cfg) s { initialised cfg u with lifecycle := .running }
  | fireSteady {ch : BitVec 4} {c : Channel} {l : Level} {s : State} (channel : Channel.ofField ch = some c)
      (soft : s.kind.get c = .softwarePWM) :
      Moves (.fire ch) s (((s.disarmSwt c).setSwLevel c l).emit c (.gpioWrite l))
  | fireToggle {ch : BitVec 4} {c : Channel} {l : Level} {d : Nat} {s : State}
      (channel : Channel.ofField ch = some c) (soft : s.kind.get c = .softwarePWM)
      (level : l = (s.swLevel.get c).flip) :
      Moves (.fire ch) s
        ((((s.disarmSwt c).setSwLevel c l).armSwt c (s.deadlineIn d)).emit c (.gpioWrite l))
  /-- FIRE whose interval is not positive. -/
  | fireStop {ch : BitVec 4} {c : Channel} {l : Level} {s : State} (channel : Channel.ofField ch = some c)
      (soft : s.kind.get c = .softwarePWM) : Moves (.fire ch) s ((s.disarmSwt c).setSwLevel c l)
  /-- A tick whose bit is clear, or one whose body faults. -/
  | tickQuiet {i : Instr} {k : Effect} (s : State) (event : i = tickOf k) : Moves i s (s.disarmFxt k)
  | tick {i : Instr} {k : Effect} {d : Nat} {s b u : State} (event : i = tickOf k)
      (active : maskHas s.activeMask k = true) (body : BodyMoves k (s.disarmFxt k) b)
      (refresh : Refreshed b u) : Moves i s (u.armFxt k (u.deadlineIn d))
  /-- A tick whose refresh faults on a table read. -/
  | tickStop {i : Instr} {k : Effect} {s b u : State} (event : i = tickOf k)
      (active : maskHas s.activeMask k = true) (body : BodyMoves k (s.disarmFxt k) b)
      (refresh : Refreshed b u) : Moves i s u

/-- A tick whose bit is set runs its body, refreshes and re-arms. -/
theorem tick_active {k : Effect} {s : State} (h : maskHas s.activeMask k = true) (d : Nat)
    (body : State → Proc) :
    tick k d body s = ((body (s.disarmFxt k)).andThen updateStatus).andThen
      fun t => .ok (t.armFxt k (t.deadlineIn d)) := if_pos h

/-- A tick whose bit is clear only disarms its timer. -/
theorem tick_inactive {k : Effect} {s : State} (h : maskHas s.activeMask k = false) (d : Nat)
    (body : State → Proc) : tick k d body s = .ok (s.disarmFxt k) :=
  if_neg (by simp [h])

theorem tick_moves {k : Effect} {d : Nat} {body : State → Proc} {s : State}
    (hb : ∀ t, body (s.disarmFxt k) = .ok t → BodyMoves k (s.disarmFxt k) t)
    (hs : ∀ f t, body (s.disarmFxt k) = .stop f t → t = s.disarmFxt k) :
    Moves (tickOf k) s (tick k d body s).state := by
  cases ha : maskHas s.activeMask k with
  | true =>
    rw [tick_active ha]
    cases hbody : body (s.disarmFxt k) with
    | stop f t =>
      have := hs f t hbody
      subst this
      exact .tickQuiet s rfl
    | ok t =>
      have hr := updateStatus_refreshed t
      simp only [Proc.andThen_ok]
      cases hu : updateStatus t with
      | ok u => rw [hu] at hr; exact .tick rfl ha (hb t hbody) hr
      | stop f u => rw [hu] at hr; exact .tickStop rfl ha (hb t hbody) hr
  | false =>
    rw [tick_inactive ha]
    exact .tickQuiet s rfl

theorem pulseBody_ok {s t : State} (h : pulseBody s = .ok t) : BodyMoves .pulse s t := by
  unfold pulseBody at h
  split at h
  · cases h
  · rename_i hc
    split at h
    · cases h
    · rename_i hv; cases h; exact .pulse hc hv

theorem pulseBody_stop {s t : State} {f : FaultCause} (h : pulseBody s = .stop f t) : t = s := by
  unfold pulseBody at h
  split at h
  · cases h; rfl
  · split at h
    · cases h; rfl
    · cases h

/-- A tick's body writes BRIGHT, STEP and PHASE only. -/
theorem BodyMoves.same {k : Effect} {s t : State} (h : BodyMoves k s t) :
    t = { s with bright := t.bright, fxStep := t.fxStep, phase := t.phase } := by
  cases h with
  | pulse => rfl
  | blink => split <;> rfl
  | heartbeat => split <;> rfl
  | rainbow h =>
    simp only [rainbowBody] at h
    cases h
    split <;> rfl

/-- Every next state of an instruction is one of the moves, up to the response and the record of a
fault. -/
theorem exec_moves {i : Instr} {s t : State} (h : exec i s = .next t) :
    ∃ u, Moves i s u ∧ Answered u t := by
  have rej : ∀ {st : Status} {i : Instr}, reject st s = .next t → ∃ u, Moves i s u ∧ Answered u t :=
    fun h => ⟨s, .keep _ s, reject_answered h⟩
  cases i with
  | setb ch v =>
    simp only [exec, execSetb] at h
    split at h
    · exact rej h
    · rename_i hl
      split at h
      · exact rej h
      · rename_i c hc
        split at h
        · exact rej h
        · rename_i hk
          split at h
          · exact rej h
          · rename_i hv
            exact ⟨_, .setb (not_not.mp hl) hc hk (BitVec.not_lt.mp hv) (channelUpdate_refreshed c _),
              endCommand_answered h⟩
  | update =>
    simp only [exec, execUpdate] at h
    split at h
    · exact rej h
    · rename_i hl
      exact ⟨_, .update (not_not.mp hl) (updateStatus_refreshed s), endCommand_answered h⟩
  | act ch ef =>
    simp only [exec, execAct] at h
    split at h
    · exact rej h
    · rename_i hl
      have hl := not_not.mp hl
      split at h
      · exact rej h
      · rename_i k hk
        split at h
        · exact rej h
        · rename_i target ht
          refine ⟨_, ?_, endCommand_answered h⟩
          unfold deactivateActive
          split
          · rename_i h0
            exact .act hl hk ht h0
          · split
            · rename_i a ha
              have hr := deactivate_refreshed a s
              have ha := activeEffect_some ha
              cases hd : deactivate a s with
              | ok u => rw [hd] at hr; exact .actReplace hl hk ht ha hr
              | stop f u => rw [hd] at hr; exact .actStop hl ha hr
            · exact .keep _ s
  | deact ef =>
    simp only [exec, execDeact] at h
    split at h
    · exact rej h
    · rename_i hl
      split at h
      · exact rej h
      · rename_i k hk
        refine ⟨_, ?_, endCommand_answered h⟩
        split
        · rename_i ha
          exact .deact (not_not.mp hl) hk ha (deactivate_refreshed k s)
        · exact .keep _ s
  | shutdown =>
    simp only [exec, execShutdown] at h
    split at h
    · exact rej h
    · rename_i hl
      exact ⟨_, .shutdown (not_not.mp hl), endCommand_answered h⟩
  | rdb ch =>
    simp only [exec, execRdb] at h
    split at h
    · exact rej h
    · cases h; exact ⟨s, .keep _ s, ⟨rfl⟩⟩
  | rdfx => simp only [exec, execRdfx] at h; cases h; exact ⟨s, .keep _ s, ⟨rfl⟩⟩
  | init cfg =>
    simp only [exec, execInit] at h
    split at h
    · exact rej h
    · rename_i hl
      split at h
      · rename_i hv
        split at h
        · rename_i u hu
          exact ⟨u, .initFailed hl hv hu, reject_answered h⟩
        · rename_i u hu
          exact ⟨_, .init hl hv hu, endCommand_answered h⟩
      · exact rej h
  | fire ch =>
    simp only [exec, execFire] at h
    refine ⟨_, ?_, endEvent_answered h⟩
    unfold fireBody
    split
    · exact .keep _ s
    · rename_i c hc
      split
      · rename_i hk
        unfold fireChannel
        simp only
        split
        · exact .fireSteady hc hk
        · split
          · exact .fireSteady hc hk
          · unfold toggle
            simp only
            split
            · exact .fireStop hc hk
            · exact .fireToggle hc hk rfl
      · exact .keep _ s
      · exact .keep _ s
  | tickPulse =>
    simp only [exec, execTickPulse] at h
    exact ⟨_, tick_moves (k := .pulse) (fun _ h => pulseBody_ok h) (fun _ _ h => pulseBody_stop h),
      endEvent_answered h⟩
  | tickBlink =>
    simp only [exec, execTickBlink] at h
    exact ⟨_, tick_moves (k := .blink) (fun _ h => by cases h; exact .blink _) (fun _ _ h => by cases h),
      endEvent_answered h⟩
  | tickHeartbeat =>
    simp only [exec, execTickHeartbeat] at h
    exact ⟨_, tick_moves (k := .heartbeat) (fun _ h => by cases h; exact .heartbeat _)
      (fun _ _ h => by cases h), endEvent_answered h⟩
  | tickRainbow =>
    simp only [exec, execTickRainbow] at h
    exact ⟨_, tick_moves (k := .rainbow) (fun _ h => .rainbow h) (fun _ _ h => by cases h),
      endEvent_answered h⟩

/-- Every instruction answers a next state. -/
theorem exec_is_next (i : Instr) (s : State) : ∃ t, exec i s = .next t := by
  have rej : ∀ st, ∃ t, reject st s = .next t := fun st => ⟨_, rfl⟩
  cases i <;> simp only [exec, execSetb, execUpdate, execAct, execDeact, execShutdown, execRdb, execRdfx,
    execInit, execFire, execTickPulse, execTickBlink, execTickHeartbeat, execTickRainbow]
  case setb => repeat' split
               all_goals first | exact rej _ | exact endCommand_is_next _ _
  case update => split <;> first | exact rej _ | exact endCommand_is_next _ _
  case act => repeat' split
              all_goals first | exact rej _ | exact endCommand_is_next _ _
  case deact => split
                · exact rej _
                · split
                  · exact rej _
                  · exact endCommand_is_next _ _
  case shutdown => split <;> first | exact rej _ | exact endCommand_is_next _ _
  case rdb => split <;> exact ⟨_, rfl⟩
  case rdfx => exact ⟨_, rfl⟩
  case init => repeat' split
               all_goals exact ⟨_, rfl⟩
  all_goals exact endEvent_is_next _ _

/-! ## One step -/

theorem unlessHalted_next {s t : State} {o : Host.Outcome State Fault Refusal}
    (h : unlessHalted s o = .next t) : s.fault = .none ∧ o = .next t := by
  unfold unlessHalted at h
  split at h
  · rename_i hf; exact ⟨hf, h⟩
  · cases h
  · cases h

theorem unlessHalted_running {s : State} (h : s.fault = .none) (o : Host.Outcome State Fault Refusal) :
    unlessHalted s o = o := by simp [unlessHalted, h]

/-- An instruction read from one word alone leaves nothing behind. -/
theorem decode_one {w : Word} {i : Instr} {ws : List Word} {cs : List ConfigRecord}
    (h : decode [w] [] = .instr i ws cs) : ws = [] ∧ cs = [] := by
  simp only [decode] at h
  split at h <;> cases h <;> exact ⟨rfl, rfl⟩

/-- Every way a step can answer a next state. -/
theorem step_cases {s t : State} (h : step s = .next t) :
    (∃ rest, s.agenda = .reset :: rest ∧ t = platformReset { s with agenda := rest }) ∨
    (s.fault = .none ∧
      ((s.agenda = [] ∧ t = s) ∨
      (∃ a rest i ws cs, s.agenda = .host a :: rest ∧ decode s.cmdPort s.cfgPort = .instr i ws cs ∧
        i.isEvent = false ∧
        exec i { s with agenda := rest, oracle := a, cmdPort := ws, cfgPort := cs } = .next t) ∨
      (∃ a rest ws cs, s.agenda = .host a :: rest ∧
        t = ({ s with agenda := rest, oracle := a, cmdPort := ws, cfgPort := cs }).respond
          .illegalCommand 0) ∨
      (∃ a rest, s.agenda = .host a :: rest ∧ t = { s with agenda := rest, oracle := a }) ∨
      (∃ w rest i id, s.agenda = .event w :: rest ∧ decode [w] [] = .instr i [] [] ∧
        eventTimer i = some id ∧ s.due id = true ∧ exec i { s with agenda := rest } = .next t) ∨
      (∃ w rest, s.agenda = .event w :: rest ∧ t = { s with agenda := rest }) ∨
      (∃ t' rest, s.agenda = .advance t' :: rest ∧ canAdvance t' s = true ∧
        t = { s with agenda := rest, nowNs := t' }) ∨
      (∃ t' rest, s.agenda = .advance t' :: rest ∧ t = { s with agenda := rest }))) := by
  unfold step at h
  split at h
  · rename_i ha
    obtain ⟨hf, h⟩ := unlessHalted_next h
    cases h
    exact .inr ⟨hf, .inl ⟨ha, rfl⟩⟩
  · rename_i rest ha
    cases h
    exact .inl ⟨rest, ha, rfl⟩
  · rename_i a rest ha
    obtain ⟨hf, h⟩ := unlessHalted_next h
    refine .inr ⟨hf, ?_⟩
    unfold hostTurn at h
    split at h
    · cases h; exact .inr (.inr (.inr (.inl ⟨a, rest, ha, rfl⟩)))
    · cases h
      rename_i ws _
      exact .inr (.inr (.inl ⟨a, rest, ws, s.cfgPort, ha, rfl⟩))
    · rename_i i ws cs hd
      split at h
      · cases h; exact .inr (.inr (.inl ⟨a, rest, ws, cs, ha, rfl⟩))
      · rename_i he
        exact .inr (.inl ⟨a, rest, i, ws, cs, ha, hd, by simpa using he, h⟩)
  · rename_i w rest ha
    obtain ⟨hf, h⟩ := unlessHalted_next h
    refine .inr ⟨hf, .inr (.inr (.inr (.inr ?_)))⟩
    unfold eventTurn at h
    split at h
    · cases h; exact .inr (.inl ⟨w, rest, ha, rfl⟩)
    · cases h; exact .inr (.inl ⟨w, rest, ha, rfl⟩)
    · rename_i i ws cs hd
      obtain ⟨rfl, rfl⟩ := decode_one hd
      split at h
      · cases h; exact .inr (.inl ⟨w, rest, ha, rfl⟩)
      · rename_i id hid
        split at h
        · rename_i hdue
          exact .inl ⟨w, rest, i, id, ha, hd, hid, hdue, h⟩
        · cases h; exact .inr (.inl ⟨w, rest, ha, rfl⟩)
  · rename_i t' rest ha
    obtain ⟨hf, h⟩ := unlessHalted_next h
    refine .inr ⟨hf, .inr (.inr (.inr (.inr (.inr (.inr ?_)))))⟩
    unfold clockTurn at h
    cases h
    split
    · rename_i hc
      exact .inl ⟨t', rest, ha, hc, rfl⟩
    · exact .inr ⟨t', rest, ha, rfl⟩

end Sys2Proof.Machine
end

