-- ==== Sys2Proof/Laws/Refresh.lean ====
section
/-! SUPPORT. A full refresh seen through the register list of 10_state.md rule R38, and the closed form of a
tick and of a deactivation when every table read is in range. -/

namespace Sys2Proof.Machine

/-- TablesCover looks at the configuration only. -/
theorem State.TablesCover.congr {s t : State} (h : s.TablesCover) (hk : t.kind = s.kind) (hm : t.maxb = s.maxb)
    (hl : t.levels = s.levels) : t.TablesCover := by
  intro c x hx
  have := h c x (by rw [State.levelsOf, ← hk, ← hl]; exact hx)
  rwa [State.maxbOf, hk, hm]

/-- ArmSoft looks at KIND, SWT and NOW_NS only. -/
theorem softTimerAfter_congr {s t : State} (hk : t.kind = s.kind) (hs : t.swt = s.swt)
    (hn : t.nowNs = s.nowNs) (c : Channel) : t.softTimerAfter c = s.softTimerAfter c := by
  simp [State.softTimerAfter, hk, hs, hn]

/-- Stamping looks at NOW_NS only. -/
theorem stamped_congr {s t : State} (h : t.nowNs = s.nowNs) (es : List (Channel × PortEvent)) :
    t.stamped es = s.stamped es := by simp [State.stamped, h]

/-- The events of a refresh depend on the configuration and the brightness as it reads, and nothing
else (40_channel_update.md rule R82). -/
theorem refreshEvents_congr {s t : State} (hk : t.kind = s.kind) (hm : t.maxb = s.maxb)
    (hl : t.lth = s.lth) (hv : t.levels = s.levels) (hp : t.periodNs = s.periodNs)
    (hb : ∀ c, t.brightOf c = s.brightOf c) : t.refreshEvents = s.refreshEvents := by
  have h1 : ∀ c, t.maxbOf c = s.maxbOf c := fun c => by simp [State.maxbOf, hk, hm]
  have h2 : ∀ c, t.lthOf c = s.lthOf c := fun c => by simp [State.lthOf, hk, hl]
  have h3 : ∀ c, t.levelsOf c = s.levelsOf c := fun c => by simp [State.levelsOf, hk, hv]
  have h4 : ∀ c, updateValue c t = updateValue c s := fun c => by simp [updateValue, h1, hb]
  simp only [State.refreshEvents, State.channelEvents, State.rawValue, h1, h2, h3, h4, hk, hp]

/-- A refresh touches no register but the soft-PWM timers and the generators. -/
theorem Refreshed.reg {s t : State} (h : Refreshed s t) (r : Reg) (hr : r ∉ allSwtRegs ++ allGenRegs) :
    t.reg r = s.reg r := by
  cases r with
  | swtArmed c => exact absurd (by cases c <;> decide) hr
  | swtDeadline c => exact absurd (by cases c <;> decide) hr
  | genEnabled c => exact absurd (by cases c <;> decide) hr
  | genDutyNs c => exact absurd (by cases c <;> decide) hr
  | genPeriodNs c => exact absurd (by cases c <;> decide) hr
  | kind c => simp [State.reg, h.kind]
  | maxb c => simp [State.reg, h.maxbOf]
  | bright c => simp [State.reg, h.brightOf]
  | lth c => simp [State.reg, State.lthOf, h.kind, h.lth]
  | swLevel c => simp [State.reg, h.swLevel]
  | periodNs => simp [State.reg, h.periodNs]
  | activeMask => simp [State.reg, h.activeMask]
  | fxStep => simp [State.reg, h.fxStep]
  | phase => simp [State.reg, h.phase]
  | savedColor => simp [State.reg, h.savedColor]
  | pulseCh => simp [State.reg, h.pulseCh]
  | fxtArmed => simp [State.reg, h.fxt]
  | fxtDeadline => simp [State.reg, h.fxt]
  | lifecycle => simp [State.reg, h.lifecycle]
  | fault => simp [State.reg, h.fault]
  | nowNs => simp [State.reg, h.nowNs]
  | levels => simp [State.reg, State.levelsOf, h.kind, h.levels]
  | acquired => simp [State.reg, h.acquired]
  | pin => simp [State.reg, h.pin]

/-- Answering touches no register. -/
theorem respond_reg (st : Status) (v : Word) (s : State) (r : Reg) : (s.respond st v).reg r = s.reg r := by
  cases r <;> rfl

/-- Arming FXT[k] touches no other register. -/
theorem armFxt_reg (k : Effect) (d : Time) (s : State) (r : Reg) (h1 : r ≠ .fxtArmed k)
    (h2 : r ≠ .fxtDeadline k) : (s.armFxt k d).reg r = s.reg r := by
  cases r with
  | fxtArmed l =>
    have : l ≠ k := fun e => h1 (e ▸ rfl)
    simp [State.reg, this]
  | fxtDeadline l =>
    have : l ≠ k := fun e => h2 (e ▸ rfl)
    simp [State.reg, this]
  | _ => rfl

/-- What a tick with its bit set leaves, when its body answers and the refresh's reads are in range. -/
theorem tick_covered {k : Effect} {d : Nat} {body : State → Proc} {s b : State}
    (ha : maskHas s.activeMask k = true) (hb : body (s.disarmFxt k) = .ok b) (hc : b.TablesCover) :
    tick k d body s = .ok ((refreshed b).armFxt k ((refreshed b).deadlineIn d)) := by
  rw [tick_active ha, hb, Proc.andThen_ok, updateStatus_covered hc, Proc.andThen_ok]

/-- What a deactivation leaves, when the refresh's reads are in range. -/
theorem deactivate_covered (k : Effect) {s : State} (hc : s.TablesCover) :
    deactivate k s = .ok (refreshed (restoredFrom k s)) :=
  updateStatus_covered (hc.congr rfl rfl rfl)

/-- What a tick with its bit set does, as a whole: `b` is what its body leaves, `d` the interval. -/
structure Ticked (k : Effect) (d : Nat) (b s t : State) : Prop where
  bright     : ∀ c, t.brightOf c = b.brightOf c
  fxStep     : t.fxStep = b.fxStep
  phase      : t.phase = b.phase
  fxt        : t.fxt = s.fxt.set k { armed := true, deadline := s.deadlineIn d }
  emitted    : s.Emitted (s.setAllBright b.brightOf).refreshEvents t
  timers     : ∀ c, t.swt.get c = s.softTimerAfter c
  regs       : ∀ r, r ∉ [Reg.fxStep, .phase, .fxtArmed k, .fxtDeadline k] ++ allBrightRegs ++
    allSwtRegs ++ allGenRegs → t.reg r = s.reg r
  faultBy    : t.faultBy = s.faultBy
  response   : t.response = s.response
  inputs     : t.inputs = s.inputs
  activeMask : t.activeMask = s.activeMask
  covers     : t.TablesCover
  kind       : t.kind = s.kind
  maxb       : t.maxb = s.maxb
  pulseCh    : t.pulseCh = s.pulseCh
  savedColor : t.savedColor = s.savedColor

/-- A tick with its bit set, when every table is long enough. -/
theorem tick_ticked {k : Effect} {d : Nat} {body : State → Proc} {s b : State}
    (ha : maskHas s.activeMask k = true) (hb : body (s.disarmFxt k) = .ok b)
    (hm : BodyMoves k (s.disarmFxt k) b) (hc : s.TablesCover) :
    ∃ t, tick k d body s = .ok t ∧ Ticked k d b s t := by
  have e := hm.same
  have hk : b.kind = s.kind := by rw [e]; rfl
  have hm : b.maxb = s.maxb := by rw [e]; rfl
  have hl : b.levels = s.levels := by rw [e]; rfl
  have hlt : b.lth = s.lth := by rw [e]; rfl
  have hn : b.nowNs = s.nowNs := by rw [e]; rfl
  have hp : b.periodNs = s.periodNs := by rw [e]; rfl
  have hcb : b.TablesCover := hc.congr hk hm hl
  have hr := refreshed_refreshed hcb
  have hbb : ∀ c, (s.setAllBright b.brightOf).brightOf c = b.brightOf c := by
    intro c; simp [State.brightOf, hk]
  refine ⟨_, tick_covered ha hb hcb, fun c => hr.brightOf c, hr.fxStep, hr.phase, ?_, ?_, ?_, ?_, ?_, ?_,
    ?_, ?_, hcb.congr hr.kind hr.maxb hr.levels, hr.kind.trans hk, hr.maxb.trans hm, ?_, ?_⟩
  · have : (refreshed b).fxt = (s.disarmFxt k).fxt := by rw [hr.fxt, e]
    simp [this, State.deadlineIn, hr.nowNs, hn, Timer.arm]
  · rw [← refreshEvents_congr (s := s.setAllBright b.brightOf) (t := b) (by simp [hk]) (by simp [hm])
      (by simp [hlt]) (by simp [hl]) (by simp [hp]) (fun c => (hbb c).symm)]
    exact (refreshed_emitted b).congr (by rw [e]; rfl) hn.symm (by rw [e]; rfl) (by rw [e]; rfl) rfl rfl rfl
  · intro c
    rw [State.armFxt_swt, refreshed_swt, Bank.get_ofFn]
    exact softTimerAfter_congr hk (by rw [e]; rfl) hn c
  · intro r h
    simp only [List.mem_append, List.mem_cons, List.not_mem_nil, or_false, not_or] at h
    obtain ⟨⟨⟨⟨h1, h2, h3, h4⟩, h5⟩, h6⟩, h7⟩ := h
    rw [armFxt_reg _ _ _ _ h3 h4, hr.reg r (by simp [h6, h7]), e]
    cases r with
    | bright c => exact absurd (by cases c <;> decide) h5
    | fxStep => exact absurd rfl h1
    | phase => exact absurd rfl h2
    | fxtArmed l =>
      have : l ≠ k := fun e => h3 (e ▸ rfl)
      simp [State.reg, this]
    | fxtDeadline l =>
      have : l ≠ k := fun e => h4 (e ▸ rfl)
      simp [State.reg, this]
    | _ => rfl
  · have := hr.faultBy; rw [e] at this ⊢; exact this
  · have := hr.response; rw [e] at this ⊢; exact this
  · have := hr.inputs; rw [e] at this ⊢; exact this
  · have := hr.activeMask; rw [e] at this ⊢; exact this
  · have := hr.pulseCh; rw [e] at this ⊢; exact this
  · have := hr.savedColor; rw [e] at this ⊢; exact this

/-! ## The pulse table -/

/-- The constraint P2 of 20_memory.md rule R46 on every entry. -/
theorem pulseEntry_le (i : Nat) : pulseEntry i ≤ 254 := by
  unfold pulseEntry
  split <;> try decide
  split
  · omega
  · split
    · omega
    · exact Nat.le_of_lt_succ (Config.pulseOpenEntry _).isLt

/-- A read in range answers the entry. -/
theorem pulseRead_in_range {i : Nat} (h : i < Config.pulseLen) :
    pulseRead i = some (BitVec.ofNat 32 (pulseEntry i)) := if_pos h

/-- A read out of range answers nothing. -/
theorem pulseRead_out_of_range {i : Nat} (h : ¬ i < Config.pulseLen) : pulseRead i = none := if_neg h

end Sys2Proof.Machine
end

