-- ==== Sys2Proof/Laws/Facade.lean ====
section
/-! SUPPORT. What INIT and SHUTDOWN do to each register: the off-writes, the releases and the acquisitions,
field by field (43_facade.md rule R111, 70_reset_and_hazards.md rules R139, R141). -/

namespace Sys2Proof.Machine

/-! ## One channel -/

@[simp] theorem driveOff_kind (c : Channel) (s : State) : (driveOff c s).kind = s.kind := by
  unfold driveOff; split <;> rfl
@[simp] theorem driveOff_maxb (c : Channel) (s : State) : (driveOff c s).maxb = s.maxb := by
  unfold driveOff; split <;> rfl
@[simp] theorem driveOff_bright (c : Channel) (s : State) : (driveOff c s).bright = s.bright := by
  unfold driveOff; split <;> rfl
@[simp] theorem driveOff_lth (c : Channel) (s : State) : (driveOff c s).lth = s.lth := by
  unfold driveOff; split <;> rfl
@[simp] theorem driveOff_levels (c : Channel) (s : State) : (driveOff c s).levels = s.levels := by
  unfold driveOff; split <;> rfl
@[simp] theorem driveOff_swt (c : Channel) (s : State) : (driveOff c s).swt = s.swt := by
  unfold driveOff; split <;> rfl
@[simp] theorem driveOff_periodNs (c : Channel) (s : State) : (driveOff c s).periodNs = s.periodNs := by
  unfold driveOff; split <;> rfl
@[simp] theorem driveOff_activeMask (c : Channel) (s : State) : (driveOff c s).activeMask = s.activeMask := by
  unfold driveOff; split <;> rfl
@[simp] theorem driveOff_fxStep (c : Channel) (s : State) : (driveOff c s).fxStep = s.fxStep := by
  unfold driveOff; split <;> rfl
@[simp] theorem driveOff_phase (c : Channel) (s : State) : (driveOff c s).phase = s.phase := by
  unfold driveOff; split <;> rfl
@[simp] theorem driveOff_savedColor (c : Channel) (s : State) : (driveOff c s).savedColor = s.savedColor := by
  unfold driveOff; split <;> rfl
@[simp] theorem driveOff_pulseCh (c : Channel) (s : State) : (driveOff c s).pulseCh = s.pulseCh := by
  unfold driveOff; split <;> rfl
@[simp] theorem driveOff_fxt (c : Channel) (s : State) : (driveOff c s).fxt = s.fxt := by
  unfold driveOff; split <;> rfl
@[simp] theorem driveOff_lifecycle (c : Channel) (s : State) : (driveOff c s).lifecycle = s.lifecycle := by
  unfold driveOff; split <;> rfl
@[simp] theorem driveOff_fault (c : Channel) (s : State) : (driveOff c s).fault = s.fault := by
  unfold driveOff; split <;> rfl
@[simp] theorem driveOff_faultBy (c : Channel) (s : State) : (driveOff c s).faultBy = s.faultBy := by
  unfold driveOff; split <;> rfl
@[simp] theorem driveOff_nowNs (c : Channel) (s : State) : (driveOff c s).nowNs = s.nowNs := by
  unfold driveOff; split <;> rfl
@[simp] theorem driveOff_acquired (c : Channel) (s : State) : (driveOff c s).acquired = s.acquired := by
  unfold driveOff; split <;> rfl
@[simp] theorem driveOff_response (c : Channel) (s : State) : (driveOff c s).response = s.response := by
  unfold driveOff; split <;> rfl
@[simp] theorem driveOff_cmdPort (c : Channel) (s : State) : (driveOff c s).cmdPort = s.cmdPort := by
  unfold driveOff; split <;> rfl
@[simp] theorem driveOff_cfgPort (c : Channel) (s : State) : (driveOff c s).cfgPort = s.cfgPort := by
  unfold driveOff; split <;> rfl
@[simp] theorem driveOff_oracle (c : Channel) (s : State) : (driveOff c s).oracle = s.oracle := by
  unfold driveOff; split <;> rfl
@[simp] theorem driveOff_agenda (c : Channel) (s : State) : (driveOff c s).agenda = s.agenda := by
  unfold driveOff; split <;> rfl
@[simp] theorem releaseChannel_kind (c : Channel) (s : State) : (releaseChannel c s).kind = s.kind := by
  unfold releaseChannel; split <;> rfl
@[simp] theorem releaseChannel_maxb (c : Channel) (s : State) : (releaseChannel c s).maxb = s.maxb := by
  unfold releaseChannel; split <;> rfl
@[simp] theorem releaseChannel_bright (c : Channel) (s : State) : (releaseChannel c s).bright = s.bright := by
  unfold releaseChannel; split <;> rfl
@[simp] theorem releaseChannel_lth (c : Channel) (s : State) : (releaseChannel c s).lth = s.lth := by
  unfold releaseChannel; split <;> rfl
@[simp] theorem releaseChannel_levels (c : Channel) (s : State) : (releaseChannel c s).levels = s.levels := by
  unfold releaseChannel; split <;> rfl
@[simp] theorem releaseChannel_swLevel (c : Channel) (s : State) : (releaseChannel c s).swLevel = s.swLevel := by
  unfold releaseChannel; split <;> rfl
@[simp] theorem releaseChannel_swt (c : Channel) (s : State) : (releaseChannel c s).swt = s.swt := by
  unfold releaseChannel; split <;> rfl
@[simp] theorem releaseChannel_periodNs (c : Channel) (s : State) : (releaseChannel c s).periodNs = s.periodNs := by
  unfold releaseChannel; split <;> rfl
@[simp] theorem releaseChannel_activeMask (c : Channel) (s : State) : (releaseChannel c s).activeMask = s.activeMask := by
  unfold releaseChannel; split <;> rfl
@[simp] theorem releaseChannel_fxStep (c : Channel) (s : State) : (releaseChannel c s).fxStep = s.fxStep := by
  unfold releaseChannel; split <;> rfl
@[simp] theorem releaseChannel_phase (c : Channel) (s : State) : (releaseChannel c s).phase = s.phase := by
  unfold releaseChannel; split <;> rfl
@[simp] theorem releaseChannel_savedColor (c : Channel) (s : State) : (releaseChannel c s).savedColor = s.savedColor := by
  unfold releaseChannel; split <;> rfl
@[simp] theorem releaseChannel_pulseCh (c : Channel) (s : State) : (releaseChannel c s).pulseCh = s.pulseCh := by
  unfold releaseChannel; split <;> rfl
@[simp] theorem releaseChannel_fxt (c : Channel) (s : State) : (releaseChannel c s).fxt = s.fxt := by
  unfold releaseChannel; split <;> rfl
@[simp] theorem releaseChannel_lifecycle (c : Channel) (s : State) : (releaseChannel c s).lifecycle = s.lifecycle := by
  unfold releaseChannel; split <;> rfl
@[simp] theorem releaseChannel_fault (c : Channel) (s : State) : (releaseChannel c s).fault = s.fault := by
  unfold releaseChannel; split <;> rfl
@[simp] theorem releaseChannel_faultBy (c : Channel) (s : State) : (releaseChannel c s).faultBy = s.faultBy := by
  unfold releaseChannel; split <;> rfl
@[simp] theorem releaseChannel_nowNs (c : Channel) (s : State) : (releaseChannel c s).nowNs = s.nowNs := by
  unfold releaseChannel; split <;> rfl
@[simp] theorem releaseChannel_generator (c : Channel) (s : State) :
    (releaseChannel c s).generator = s.generator := by
  unfold releaseChannel; split <;> first | rfl | simp [generatorAfter]
@[simp] theorem releaseChannel_pin (c : Channel) (s : State) : (releaseChannel c s).pin = s.pin := by
  unfold releaseChannel; split <;> first | rfl | simp [pinAfter]
@[simp] theorem releaseChannel_response (c : Channel) (s : State) : (releaseChannel c s).response = s.response := by
  unfold releaseChannel; split <;> rfl
@[simp] theorem releaseChannel_cmdPort (c : Channel) (s : State) : (releaseChannel c s).cmdPort = s.cmdPort := by
  unfold releaseChannel; split <;> rfl
@[simp] theorem releaseChannel_cfgPort (c : Channel) (s : State) : (releaseChannel c s).cfgPort = s.cfgPort := by
  unfold releaseChannel; split <;> rfl
@[simp] theorem releaseChannel_oracle (c : Channel) (s : State) : (releaseChannel c s).oracle = s.oracle := by
  unfold releaseChannel; split <;> rfl
@[simp] theorem releaseChannel_agenda (c : Channel) (s : State) : (releaseChannel c s).agenda = s.agenda := by
  unfold releaseChannel; split <;> rfl
@[simp] theorem forceOff_kind (c : Channel) (s : State) : (forceOff c s).kind = (driveOff c s).kind := rfl
@[simp] theorem forceOff_maxb (c : Channel) (s : State) : (forceOff c s).maxb = (driveOff c s).maxb := rfl
@[simp] theorem forceOff_lth (c : Channel) (s : State) : (forceOff c s).lth = (driveOff c s).lth := rfl
@[simp] theorem forceOff_levels (c : Channel) (s : State) : (forceOff c s).levels = (driveOff c s).levels := rfl
@[simp] theorem forceOff_swLevel (c : Channel) (s : State) : (forceOff c s).swLevel = (driveOff c s).swLevel := rfl
@[simp] theorem forceOff_swt (c : Channel) (s : State) : (forceOff c s).swt = (driveOff c s).swt := rfl
@[simp] theorem forceOff_periodNs (c : Channel) (s : State) : (forceOff c s).periodNs = (driveOff c s).periodNs := rfl
@[simp] theorem forceOff_activeMask (c : Channel) (s : State) : (forceOff c s).activeMask = (driveOff c s).activeMask := rfl
@[simp] theorem forceOff_fxStep (c : Channel) (s : State) : (forceOff c s).fxStep = (driveOff c s).fxStep := rfl
@[simp] theorem forceOff_phase (c : Channel) (s : State) : (forceOff c s).phase = (driveOff c s).phase := rfl
@[simp] theorem forceOff_savedColor (c : Channel) (s : State) : (forceOff c s).savedColor = (driveOff c s).savedColor := rfl
@[simp] theorem forceOff_pulseCh (c : Channel) (s : State) : (forceOff c s).pulseCh = (driveOff c s).pulseCh := rfl
@[simp] theorem forceOff_fxt (c : Channel) (s : State) : (forceOff c s).fxt = (driveOff c s).fxt := rfl
@[simp] theorem forceOff_lifecycle (c : Channel) (s : State) : (forceOff c s).lifecycle = (driveOff c s).lifecycle := rfl
@[simp] theorem forceOff_fault (c : Channel) (s : State) : (forceOff c s).fault = (driveOff c s).fault := rfl
@[simp] theorem forceOff_faultBy (c : Channel) (s : State) : (forceOff c s).faultBy = (driveOff c s).faultBy := rfl
@[simp] theorem forceOff_nowNs (c : Channel) (s : State) : (forceOff c s).nowNs = (driveOff c s).nowNs := rfl
@[simp] theorem forceOff_acquired (c : Channel) (s : State) : (forceOff c s).acquired = (driveOff c s).acquired := rfl
@[simp] theorem forceOff_generator (c : Channel) (s : State) : (forceOff c s).generator = (driveOff c s).generator := rfl
@[simp] theorem forceOff_pin (c : Channel) (s : State) : (forceOff c s).pin = (driveOff c s).pin := rfl
@[simp] theorem forceOff_response (c : Channel) (s : State) : (forceOff c s).response = (driveOff c s).response := rfl
@[simp] theorem forceOff_cmdPort (c : Channel) (s : State) : (forceOff c s).cmdPort = (driveOff c s).cmdPort := rfl
@[simp] theorem forceOff_cfgPort (c : Channel) (s : State) : (forceOff c s).cfgPort = (driveOff c s).cfgPort := rfl
@[simp] theorem forceOff_oracle (c : Channel) (s : State) : (forceOff c s).oracle = (driveOff c s).oracle := rfl
@[simp] theorem forceOff_agenda (c : Channel) (s : State) : (forceOff c s).agenda = (driveOff c s).agenda := rfl
@[simp] theorem forceOff_bright (c : Channel) (s : State) :
    (forceOff c s).bright = s.bright.set c 0 := by simp [forceOff]

@[simp] theorem forceOff_log (c : Channel) (s : State) : (forceOff c s).log = (driveOff c s).log := rfl

theorem driveOff_swLevel (c : Channel) (s : State) :
    (driveOff c s).swLevel =
      s.swLevel.set c (if s.kind.get c = .softwarePWM then .low else s.swLevel.get c) := by
  unfold driveOff; split <;> rename_i h <;> simp [h]

theorem driveOff_generator (c : Channel) (s : State) :
    (driveOff c s).generator = s.generator.set c
      (if s.kind.get c = .hardwarePWM then { s.generator.get c with enabled := some false }
        else s.generator.get c) := by
  unfold driveOff; split <;> rename_i h <;> simp [h, generatorAfter]

theorem driveOff_pin (c : Channel) (s : State) :
    (driveOff c s).pin = s.pin.set c (if s.kind.get c = .softwarePWM then some .low else s.pin.get c) := by
  unfold driveOff; split <;> rename_i h <;> simp [h, pinAfter]

theorem releaseChannel_acquired (c : Channel) (s : State) :
    (releaseChannel c s).acquired =
      s.acquired.set c (if s.kind.get c = .unassigned then s.acquired.get c else false) := by
  unfold releaseChannel; split <;> rename_i h <;> simp [h]

/-- The off-write of one channel of a given kind. -/
def offWrite (k : Kind) (c : Channel) : List (Channel × PortEvent) :=
  match k with
  | .unassigned => []
  | .hardwarePWM => [(c, .pwmDisable)]
  | .softwarePWM => [(c, .gpioWrite .low)]

theorem driveOff_log (c : Channel) (s : State) :
    (driveOff c s).log = s.log ++ s.stamped (offWrite (s.kind.get c) c) := by
  cases hk : s.kind.get c <;> simp [driveOff, offWrite, hk]

theorem releaseChannel_log (c : Channel) (s : State) :
    (releaseChannel c s).log =
      s.log ++ s.stamped (if s.kind.get c = .unassigned then [] else [(c, .release)]) := by
  unfold releaseChannel; split <;> rename_i h <;> simp [h]

theorem driveOff_emitted (c : Channel) (s : State) :
    s.Emitted (offWrite (s.kind.get c) c) (driveOff c s) := by
  unfold driveOff offWrite
  cases s.kind.get c with
  | unassigned => exact .refl s
  | hardwarePWM => exact s.emit_emitted c .pwmDisable
  | softwarePWM => exact ((s.setSwLevel c .low).emit_emitted c (.gpioWrite .low)).congr rfl rfl rfl rfl rfl rfl rfl

theorem releaseChannel_emitted (c : Channel) (s : State) :
    s.Emitted (if s.kind.get c = .unassigned then [] else [(c, .release)]) (releaseChannel c s) := by
  unfold releaseChannel
  cases s.kind.get c with
  | unassigned => exact .refl s
  | hardwarePWM => exact (s.emit_emitted c .release).congr rfl rfl rfl rfl rfl rfl rfl
  | softwarePWM => exact (s.emit_emitted c .release).congr rfl rfl rfl rfl rfl rfl rfl

/-- One operation after another over a list of channels: the ports follow the events. -/
theorem foldl_emitted {f : Channel → State → State} (hf : ∀ c (s : State), ∃ es, s.Emitted es (f c s))
    (hn : ∀ c s, (f c s).nowNs = s.nowNs) (cs : List Channel) (s : State) :
    ∃ es, s.Emitted es (cs.foldl (fun t c => f c t) s) ∧ (cs.foldl (fun t c => f c t) s).nowNs = s.nowNs := by
  induction cs generalizing s with
  | nil => exact ⟨[], .refl s, rfl⟩
  | cons c cs ih =>
    obtain ⟨es, h⟩ := hf c s
    obtain ⟨fs, g, hg⟩ := ih (f c s)
    exact ⟨es ++ fs, h.trans g (hn c s), hg.trans (hn c s)⟩

theorem offWrites_eq (k : Bank Kind) :
    offWrites k = offWrite k.red .red ++ (offWrite k.green .green ++
      (offWrite k.blue .blue ++ offWrite k.white .white)) := by
  simp only [offWrites, allChannels, List.flatMap_cons, List.flatMap_nil, List.append_nil]
  rfl

theorem releases_eq (k : Bank Kind) :
    releases k = (if k.red = .unassigned then [] else [(.red, .release)]) ++
      ((if k.green = .unassigned then [] else [(.green, .release)]) ++
      ((if k.blue = .unassigned then [] else [(.blue, .release)]) ++
      (if k.white = .unassigned then [] else [(.white, .release)]))) := by
  simp only [releases, allChannels, List.flatMap_cons, List.flatMap_nil, List.append_nil]
  rfl

/-! ## All channels: SHUTDOWN -/

@[simp] theorem turnedOff_kind (s : State) : (turnedOff s).kind = s.kind := by
  simp [turnedOff, allChannels]
@[simp] theorem turnedOff_maxb (s : State) : (turnedOff s).maxb = s.maxb := by
  simp [turnedOff, allChannels]
@[simp] theorem turnedOff_lth (s : State) : (turnedOff s).lth = s.lth := by
  simp [turnedOff, allChannels]
@[simp] theorem turnedOff_levels (s : State) : (turnedOff s).levels = s.levels := by
  simp [turnedOff, allChannels]
@[simp] theorem turnedOff_periodNs (s : State) : (turnedOff s).periodNs = s.periodNs := by
  simp [turnedOff, allChannels]
@[simp] theorem turnedOff_fxStep (s : State) : (turnedOff s).fxStep = s.fxStep := by
  simp [turnedOff, allChannels]
@[simp] theorem turnedOff_phase (s : State) : (turnedOff s).phase = s.phase := by
  simp [turnedOff, allChannels]
@[simp] theorem turnedOff_savedColor (s : State) : (turnedOff s).savedColor = s.savedColor := by
  simp [turnedOff, allChannels]
@[simp] theorem turnedOff_pulseCh (s : State) : (turnedOff s).pulseCh = s.pulseCh := by
  simp [turnedOff, allChannels]
@[simp] theorem turnedOff_lifecycle (s : State) : (turnedOff s).lifecycle = s.lifecycle := by
  simp [turnedOff, allChannels]
@[simp] theorem turnedOff_fault (s : State) : (turnedOff s).fault = s.fault := by
  simp [turnedOff, allChannels]
@[simp] theorem turnedOff_faultBy (s : State) : (turnedOff s).faultBy = s.faultBy := by
  simp [turnedOff, allChannels]
@[simp] theorem turnedOff_nowNs (s : State) : (turnedOff s).nowNs = s.nowNs := by
  simp [turnedOff, allChannels]
@[simp] theorem turnedOff_response (s : State) : (turnedOff s).response = s.response := by
  simp [turnedOff, allChannels]
@[simp] theorem turnedOff_cmdPort (s : State) : (turnedOff s).cmdPort = s.cmdPort := by
  simp [turnedOff, allChannels]
@[simp] theorem turnedOff_cfgPort (s : State) : (turnedOff s).cfgPort = s.cfgPort := by
  simp [turnedOff, allChannels]
@[simp] theorem turnedOff_oracle (s : State) : (turnedOff s).oracle = s.oracle := by
  simp [turnedOff, allChannels]
@[simp] theorem turnedOff_agenda (s : State) : (turnedOff s).agenda = s.agenda := by
  simp [turnedOff, allChannels]
@[simp] theorem turnedOff_activeMask (s : State) : (turnedOff s).activeMask = 0 := by
  simp [turnedOff, allChannels]
@[simp] theorem turnedOff_bright (s : State) : (turnedOff s).bright = Bank.all 0 := by
  simp [turnedOff, allChannels, Bank.set, Bank.all]
@[simp] theorem turnedOff_swt (s : State) :
    (turnedOff s).swt = Bank.ofFn fun c => (s.swt.get c).disarm := by
  simp [turnedOff, allChannels]
@[simp] theorem turnedOff_fxt (s : State) :
    (turnedOff s).fxt = FxBank.ofFn fun k => (s.fxt.get k).disarm := by
  simp [turnedOff, allChannels]

/-- SHUTDOWN's levels: Low on every SoftwarePWM channel. -/
theorem turnedOff_swLevel (s : State) (c : Channel) :
    (turnedOff s).swLevel.get c = if s.kind.get c = .softwarePWM then .low else s.swLevel.get c := by
  cases c <;> simp [turnedOff, allChannels, driveOff_swLevel]

/-- SHUTDOWN disables every HardwarePWM generator and leaves its duty and period alone. -/
theorem turnedOff_generator (s : State) (c : Channel) :
    (turnedOff s).generator.get c =
      if s.kind.get c = .hardwarePWM then { s.generator.get c with enabled := some false }
      else s.generator.get c := by
  cases c <;> simp [turnedOff, allChannels, driveOff_generator]

/-- SHUTDOWN drives every SoftwarePWM pin Low. -/
theorem turnedOff_pin (s : State) (c : Channel) :
    (turnedOff s).pin.get c = if s.kind.get c = .softwarePWM then some .low else s.pin.get c := by
  cases c <;> simp [turnedOff, allChannels, driveOff_pin]

/-- SHUTDOWN releases every assigned channel's handle. -/
theorem turnedOff_acquired (s : State) (c : Channel) :
    (turnedOff s).acquired.get c = if s.kind.get c = .unassigned then s.acquired.get c else false := by
  cases c <;> simp [turnedOff, allChannels, releaseChannel_acquired]

/-- SHUTDOWN's events: the off-writes, then the releases, each in channel order. -/
theorem turnedOff_log (s : State) :
    (turnedOff s).log = s.log ++ s.stamped (offWrites s.kind ++ releases s.kind) := by
  have h : ∀ t : State, t.nowNs = s.nowNs → ∀ es, t.stamped es = s.stamped es :=
    fun t ht es => stamped_congr ht es
  simp only [turnedOff, allChannels, List.foldl_cons, List.foldl_nil, releaseChannel_log, forceOff_log,
    driveOff_log, offWrites_eq, releases_eq, State.stamped_append, List.append_assoc,
    releaseChannel_kind, forceOff_kind, driveOff_kind]
  have hn : ∀ t : State, t.nowNs = s.nowNs → ∀ c, (forceOff c t).nowNs = s.nowNs :=
    fun t ht c => by simp [ht]
  have hr : ∀ t : State, t.nowNs = s.nowNs → ∀ c, (releaseChannel c t).nowNs = s.nowNs :=
    fun t ht c => by simp [ht]
  have h0 : ({ s.disarmAll with activeMask := 0 } : State).nowNs = s.nowNs := rfl
  have h1 := hn _ h0 .red
  have h2 := hn _ h1 .green
  have h3 := hn _ h2 .blue
  have h4 := hn _ h3 .white
  have h5 := hr _ h4 .red
  have h6 := hr _ h5 .green
  have h7 := hr _ h6 .blue
  rw [h _ h0, h _ h1, h _ h2, h _ h3, h _ h4, h _ h5, h _ h6, h _ h7]
  rfl

/-- SHUTDOWN's ports follow its events. -/
theorem turnedOff_emitted (s : State) : ∃ es, s.Emitted es (turnedOff s) := by
  obtain ⟨es, h, hn⟩ := foldl_emitted (f := forceOff)
    (fun c t => ⟨_, (driveOff_emitted c t).congr rfl rfl rfl rfl rfl rfl rfl⟩) (fun c t => by simp)
    allChannels { s.disarmAll with activeMask := 0 }
  obtain ⟨fs, g, -⟩ := foldl_emitted (f := releaseChannel) (fun c t => ⟨_, releaseChannel_emitted c t⟩)
    (fun c t => by simp) allChannels
    (allChannels.foldl (fun t c => forceOff c t) { s.disarmAll with activeMask := 0 })
  exact ⟨es ++ fs, (h.trans g hn).congr rfl rfl rfl rfl rfl rfl rfl⟩

/-! ## All channels: INIT -/

@[simp] theorem initialised_kind (cfg : ConfigRecord) (s : State) :
    (initialised cfg s).kind = (commitConfig cfg s).kind := by simp [initialised, allChannels]
@[simp] theorem initialised_maxb (cfg : ConfigRecord) (s : State) :
    (initialised cfg s).maxb = (commitConfig cfg s).maxb := by simp [initialised, allChannels]
@[simp] theorem initialised_bright (cfg : ConfigRecord) (s : State) :
    (initialised cfg s).bright = (commitConfig cfg s).bright := by simp [initialised, allChannels]
@[simp] theorem initialised_lth (cfg : ConfigRecord) (s : State) :
    (initialised cfg s).lth = (commitConfig cfg s).lth := by simp [initialised, allChannels]
@[simp] theorem initialised_levels (cfg : ConfigRecord) (s : State) :
    (initialised cfg s).levels = (commitConfig cfg s).levels := by simp [initialised, allChannels]
@[simp] theorem initialised_swt (cfg : ConfigRecord) (s : State) :
    (initialised cfg s).swt = (commitConfig cfg s).swt := by simp [initialised, allChannels]
@[simp] theorem initialised_periodNs (cfg : ConfigRecord) (s : State) :
    (initialised cfg s).periodNs = (commitConfig cfg s).periodNs := by simp [initialised, allChannels]
@[simp] theorem initialised_activeMask (cfg : ConfigRecord) (s : State) :
    (initialised cfg s).activeMask = (commitConfig cfg s).activeMask := by simp [initialised, allChannels]
@[simp] theorem initialised_fxStep (cfg : ConfigRecord) (s : State) :
    (initialised cfg s).fxStep = (commitConfig cfg s).fxStep := by simp [initialised, allChannels]
@[simp] theorem initialised_phase (cfg : ConfigRecord) (s : State) :
    (initialised cfg s).phase = (commitConfig cfg s).phase := by simp [initialised, allChannels]
@[simp] theorem initialised_savedColor (cfg : ConfigRecord) (s : State) :
    (initialised cfg s).savedColor = (commitConfig cfg s).savedColor := by simp [initialised, allChannels]
@[simp] theorem initialised_pulseCh (cfg : ConfigRecord) (s : State) :
    (initialised cfg s).pulseCh = (commitConfig cfg s).pulseCh := by simp [initialised, allChannels]
@[simp] theorem initialised_fxt (cfg : ConfigRecord) (s : State) :
    (initialised cfg s).fxt = (commitConfig cfg s).fxt := by simp [initialised, allChannels]
@[simp] theorem initialised_lifecycle (cfg : ConfigRecord) (s : State) :
    (initialised cfg s).lifecycle = (commitConfig cfg s).lifecycle := by simp [initialised, allChannels]
@[simp] theorem initialised_fault (cfg : ConfigRecord) (s : State) :
    (initialised cfg s).fault = (commitConfig cfg s).fault := by simp [initialised, allChannels]
@[simp] theorem initialised_faultBy (cfg : ConfigRecord) (s : State) :
    (initialised cfg s).faultBy = (commitConfig cfg s).faultBy := by simp [initialised, allChannels]
@[simp] theorem initialised_nowNs (cfg : ConfigRecord) (s : State) :
    (initialised cfg s).nowNs = (commitConfig cfg s).nowNs := by simp [initialised, allChannels]
@[simp] theorem initialised_acquired (cfg : ConfigRecord) (s : State) :
    (initialised cfg s).acquired = (commitConfig cfg s).acquired := by simp [initialised, allChannels]
@[simp] theorem initialised_response (cfg : ConfigRecord) (s : State) :
    (initialised cfg s).response = (commitConfig cfg s).response := by simp [initialised, allChannels]
@[simp] theorem initialised_cmdPort (cfg : ConfigRecord) (s : State) :
    (initialised cfg s).cmdPort = (commitConfig cfg s).cmdPort := by simp [initialised, allChannels]
@[simp] theorem initialised_cfgPort (cfg : ConfigRecord) (s : State) :
    (initialised cfg s).cfgPort = (commitConfig cfg s).cfgPort := by simp [initialised, allChannels]
@[simp] theorem initialised_oracle (cfg : ConfigRecord) (s : State) :
    (initialised cfg s).oracle = (commitConfig cfg s).oracle := by simp [initialised, allChannels]
@[simp] theorem initialised_agenda (cfg : ConfigRecord) (s : State) :
    (initialised cfg s).agenda = (commitConfig cfg s).agenda := by simp [initialised, allChannels]

/-- Every level is Low after INIT. -/
@[simp] theorem initialised_swLevel (cfg : ConfigRecord) (s : State) (c : Channel) :
    (initialised cfg s).swLevel.get c = .low := by
  cases c <;> simp [initialised, allChannels, driveOff_swLevel, commitConfig]

/-- INIT disables every HardwarePWM generator; the rest of the generators is UNKNOWN. -/
theorem initialised_generator (cfg : ConfigRecord) (s : State) (c : Channel) :
    (initialised cfg s).generator.get c =
      if (commitConfig cfg s).kind.get c = .hardwarePWM then
        { Generator.unknown with enabled := some false }
      else Generator.unknown := by
  have h : ∀ d, (commitConfig cfg s).generator.get d = Generator.unknown := fun d => by simp [commitConfig]
  cases c <;> simp [initialised, allChannels, driveOff_generator, h]

/-- INIT drives every SoftwarePWM pin Low; the rest of the pins is UNKNOWN. -/
theorem initialised_pin (cfg : ConfigRecord) (s : State) (c : Channel) :
    (initialised cfg s).pin.get c =
      if (commitConfig cfg s).kind.get c = .softwarePWM then some .low else none := by
  have h : ∀ d, (commitConfig cfg s).pin.get d = none := fun d => by simp [commitConfig]
  cases c <;> simp [initialised, allChannels, driveOff_pin, h]

/-- INIT's off-writes, in channel order. -/
theorem initialised_log (cfg : ConfigRecord) (s : State) :
    (initialised cfg s).log = s.log ++ s.stamped (offWrites (commitConfig cfg s).kind) := by
  have h : ∀ t : State, t.nowNs = s.nowNs → ∀ es, t.stamped es = s.stamped es :=
    fun t ht es => stamped_congr ht es
  have hn : (commitConfig cfg s).nowNs = s.nowNs := rfl
  have hl : (commitConfig cfg s).log = s.log := rfl
  simp only [initialised, allChannels, List.foldl_cons, List.foldl_nil, driveOff_log, offWrites_eq,
    State.stamped_append, List.append_assoc, driveOff_kind, hl]
  have hd : ∀ t : State, t.nowNs = s.nowNs → ∀ c, (driveOff c t).nowNs = s.nowNs :=
    fun t ht c => by simp [ht]
  have h1 := hd _ hn .red
  have h2 := hd _ h1 .green
  have h3 := hd _ h2 .blue
  rw [h _ hn, h _ h1, h _ h2, h _ h3]
  rfl

/-- INIT's off-writes reach ports that were UNKNOWN. -/
theorem initialised_emitted (cfg : ConfigRecord) (s : State) :
    ∃ es, s.withUnknownPorts.Emitted es (initialised cfg s) := by
  obtain ⟨es, h, -⟩ := foldl_emitted (f := driveOff) (fun c t => ⟨_, driveOff_emitted c t⟩)
    (fun c t => by simp) allChannels (commitConfig cfg s)
  exact ⟨es, h.congr rfl rfl rfl rfl rfl rfl rfl⟩

/-! ## The record -/

/-- With distinct colours, the entry of an entry's colour is that entry. -/
theorem entryFor_mem {cfg : ConfigRecord} (hn : (cfg.map Entry.color).Nodup) {e : Entry} (he : e ∈ cfg) :
    entryFor cfg e.color = some e := by
  induction cfg with
  | nil => cases he
  | cons d ds ih =>
    rw [List.map_cons, List.nodup_cons] at hn
    rcases List.mem_cons.mp he with rfl | h
    · simp [entryFor]
    · have hd : d.color ≠ e.color := fun h2 => hn.1 (h2 ▸ List.mem_map_of_mem h)
      simp only [entryFor, List.find?_cons, beq_eq_false_iff_ne.mpr hd]
      exact ih hn.2 h

/-- A colour without an entry has none. -/
theorem entryFor_none {cfg : ConfigRecord} {c : Channel} (h : ∀ e ∈ cfg, e.color ≠ c) :
    entryFor cfg c = none := by
  simp only [entryFor, List.find?_eq_none, beq_iff_eq]
  exact h

/-- The entry found for a colour is in the record and has that colour. -/
theorem entryFor_some {cfg : ConfigRecord} {c : Channel} {e : Entry} (h : entryFor cfg c = some e) :
    e ∈ cfg ∧ e.color = c :=
  ⟨List.mem_of_find?_eq_some h, by simpa using List.find?_some h⟩

/-! ## Acquisition -/

/-- Emitting a list of events on given channels. -/
theorem foldl_emit (e : PortEvent) (cs : List Channel) (s : State) :
    cs.foldl (fun t c => t.emit c e) s = s.emitAll (cs.map fun c => (c, e)) := by
  induction cs generalizing s with
  | nil => rfl
  | cons c cs ih => exact ih (s.emit c e)

/-- When every handle is acquired, INIT has emitted one ACQUIRE per entry, in list order. -/
theorem acquire_all (es : List (Entry × Bool)) (h : ∀ p ∈ es, p.2 = true) (got : List Channel) (s : State) :
    acquire es got s = (true, s.emitAll (es.map fun p => (p.1.color, .acquire))) := by
  induction es generalizing got s with
  | nil => rfl
  | cons p es ih =>
    obtain ⟨e, b⟩ := p
    have hb : b = true := h (e, b) (by simp)
    subst hb
    exact ih (fun q hq => h q (by simp [hq])) _ _

/-- When the handle after `pre` is the first that fails, INIT has emitted an ACQUIRE for each entry of
`pre` in list order, then a RELEASE for each handle held, latest first. -/
theorem acquire_fails (pre : List (Entry × Bool)) (h : ∀ p ∈ pre, p.2 = true) (e : Entry)
    (post : List (Entry × Bool)) (got : List Channel) (s : State) :
    acquire (pre ++ (e, false) :: post) got s =
      (false, (s.emitAll (pre.map fun p => (p.1.color, .acquire))).emitAll
        (((pre.map fun p => p.1.color).reverse ++ got).map fun c => (c, .release))) := by
  induction pre generalizing got s with
  | nil => simp [acquire, foldl_emit]
  | cons p pre ih =>
    obtain ⟨d, b⟩ := p
    have hb : b = true := h (d, b) (by simp)
    subst hb
    rw [List.cons_append, acquire, ih (fun q hq => h q (by simp [hq]))]
    simp

/-- ACQUIRE and RELEASE events reach the log only: no port register is written (60_exceptions.md rule R119). -/
theorem emitAll_handles (es : List (Channel × PortEvent)) (h : ∀ ce ∈ es, ce.2 = .acquire ∨ ce.2 = .release)
    (s : State) : s.emitAll es = { s with log := s.log ++ s.stamped es } := by
  induction es generalizing s with
  | nil => simp
  | cons ce es ih =>
    have he : s.emit ce.1 ce.2 =
        { s with log := s.log ++ [{ time := s.nowNs, channel := ce.1, event := ce.2 }] } := by
      obtain ⟨c, e⟩ := ce
      rcases h (c, e) (by simp) with rfl | rfl <;> simp [State.emit, generatorAfter, pinAfter]
    rw [State.emitAll_cons, ih (fun x hx => h x (by simp [hx])), he]
    simp [State.stamped]

/-- Acquisition only appends ACQUIRE and RELEASE events. -/
theorem acquire_emits (es : List (Entry × Bool)) (got : List Channel) (s : State) :
    ∃ evs : List (Channel × PortEvent), (acquire es got s).2 = s.emitAll evs ∧
      ∀ ce ∈ evs, ce.2 = .acquire ∨ ce.2 = .release := by
  induction es generalizing got s with
  | nil => exact ⟨[], rfl, by simp⟩
  | cons p es ih =>
    obtain ⟨e, b⟩ := p
    cases b with
    | true =>
      obtain ⟨evs, h1, h2⟩ := ih (e.color :: got) (s.emit e.color .acquire)
      refine ⟨(e.color, .acquire) :: evs, h1, ?_⟩
      intro ce hce
      rcases List.mem_cons.mp hce with rfl | hm
      · exact .inl rfl
      · exact h2 ce hm
    | false =>
      refine ⟨got.map fun c => (c, .release), foldl_emit _ _ _, ?_⟩
      intro ce hce
      obtain ⟨c, _, rfl⟩ := List.mem_map.mp hce
      exact .inr rfl

end Sys2Proof.Machine
end

