-- ==== Sys2Proof/Laws/PerInstr.lean ====
section
/-! SUPPORT. The encoding of every instruction, one lemma per constructor of `Instr`: the fields of its command
word and the length of its item (30_encoding.md rules R59, R60, R64, R65, R67, R69). -/

namespace Sys2Proof.Laws.EncodedForm

/-- The first word of i has RSV = 0 and an operation code in use, that code alone tells how many words and
records the item has (30_encoding.md rule R69), and it is 0x80 or 0x81 exactly for an internal event
(rule R67). -/
def Statement (i : Instr) : Prop :=
  ∃ (w : Word) (rest : List Word), (encode i).words = w :: rest ∧ rsvField w = 0 ∧
    opField w ∈ knownOpcodes ∧
    rest.length = (if opField w = 0x01 then 1 else 0) ∧
    (encode i).records.length = (if opField w = 0x10 then 1 else 0) ∧
    i.isEvent = (opField w == 0x80 || opField w == 0x81)

/-- An item whose first word is a command word with the given operation code has the stated form. -/
theorem of_commandWord {i : Instr} {op : BitVec 8} {ch ef : BitVec 4} {rest : List Word}
    (hw : (encode i).words = commandWord op ch ef :: rest) (ho : op ∈ knownOpcodes)
    (hl : rest.length = (if op = 0x01 then 1 else 0))
    (hr : (encode i).records.length = (if op = 0x10 then 1 else 0))
    (he : i.isEvent = (op == 0x80 || op == 0x81)) : Statement i :=
  ⟨_, _, hw, rsvField_commandWord op ch ef, by rwa [opField_commandWord], by rwa [opField_commandWord],
    by rwa [opField_commandWord], by rwa [opField_commandWord]⟩

theorem setb (ch : BitVec 4) (v : Word) : Statement (.setb ch v) :=
  of_commandWord rfl (by decide) rfl rfl rfl
theorem update : Statement .update := of_commandWord rfl (by decide) rfl rfl rfl
theorem act (ch ef : BitVec 4) : Statement (.act ch ef) := of_commandWord rfl (by decide) rfl rfl rfl
theorem deact (ef : BitVec 4) : Statement (.deact ef) := of_commandWord rfl (by decide) rfl rfl rfl
theorem shutdown : Statement .shutdown := of_commandWord rfl (by decide) rfl rfl rfl
theorem rdb (ch : BitVec 4) : Statement (.rdb ch) := of_commandWord rfl (by decide) rfl rfl rfl
theorem rdfx : Statement .rdfx := of_commandWord rfl (by decide) rfl rfl rfl
theorem init (cfg : ConfigRecord) : Statement (.init cfg) := of_commandWord rfl (by decide) rfl rfl rfl
theorem fire (ch : BitVec 4) : Statement (.fire ch) := of_commandWord rfl (by decide) rfl rfl rfl
theorem tickPulse : Statement .tickPulse := of_commandWord rfl (by decide) rfl rfl rfl
theorem tickBlink : Statement .tickBlink := of_commandWord rfl (by decide) rfl rfl rfl
theorem tickHeartbeat : Statement .tickHeartbeat := of_commandWord rfl (by decide) rfl rfl rfl
theorem tickRainbow : Statement .tickRainbow := of_commandWord rfl (by decide) rfl rfl rfl

end Sys2Proof.Laws.EncodedForm
end

