-- ==== Sys2Proof/Machine/AsmText.lean ====
section
/-! DEFINITION. The assembler's text (30_encoding.md rules R71, R72): lines of characters read into
`AsmLine`s, with the configuration record written as 95_test_vectors.md writes it.  Log entry 24. -/

namespace Sys2Proof.Machine

/-- A token of the assembler's text: a word, or one of the characters that stand alone. -/
inductive Token where
  | word (w : List Char)
  | comma | semicolon | equals | openBrace | closeBrace | openBracket | closeBracket
  deriving DecidableEq, Repr

/-- The character that opens a record (95_test_vectors.md conventions). -/
def charOpenBrace : Char := Char.ofNat 123

/-- The character that closes a record. -/
def charCloseBrace : Char := Char.ofNat 125

/-- The token a character is by itself, if it is one. -/
def singleToken (c : Char) : Option Token :=
  if c = ',' then some .comma
  else if c = ';' then some .semicolon
  else if c = '=' then some .equals
  else if c = charOpenBrace then some .openBrace
  else if c = charCloseBrace then some .closeBrace
  else if c = '[' then some .openBracket
  else if c = ']' then some .closeBracket
  else none

/-- The word gathered so far (latest character first) as a token, if it is not empty. -/
def gathered (acc : List Char) : List Token :=
  match acc with
  | [] => []
  | c :: cs => [.word (c :: cs).reverse]

/-- Characters into tokens; blanks and tabs end a word. -/
def tokens : List Char → List Char → List Token
  | [], acc => gathered acc
  | c :: cs, acc =>
    match singleToken c with
    | some t => gathered acc ++ t :: tokens cs []
    | none =>
      if c = ' ' ∨ c = '\t' ∨ c = '\r' then gathered acc ++ tokens cs []
      else tokens cs (c :: acc)

/-- "`;` starts a comment" (30_encoding.md rule R71), but inside a record it separates entries. -/
def dropComment : Bool → List Token → List Token
  | _, [] => []
  | true, .closeBrace :: ts => .closeBrace :: dropComment false ts
  | true, t :: ts => t :: dropComment true ts
  | false, .semicolon :: _ => []
  | false, .openBrace :: ts => .openBrace :: dropComment true ts
  | false, t :: ts => t :: dropComment false ts

/-- The value of a digit in a base of at most 16. -/
def digitValue (base : Nat) (c : Char) : Option Nat :=
  let v :=
    if '0' ≤ c ∧ c ≤ '9' then some (c.toNat - '0'.toNat)
    else if 'a' ≤ c ∧ c ≤ 'f' then some (c.toNat - 'a'.toNat + 10)
    else if 'A' ≤ c ∧ c ≤ 'F' then some (c.toNat - 'A'.toNat + 10)
    else none
  v.filter (fun d => decide (d < base))

/-- The digits of a number, most significant first, onto what stands before them. -/
def digitsValue (base : Nat) : List Char → Nat → Option Nat
  | [], n => some n
  | c :: cs, n => (digitValue base c).bind fun d => digitsValue base cs (n * base + d)

/-- A number in decimal or, after 0x, in hexadecimal (30_encoding.md rule R71). -/
def numberOf : List Char → Option Nat
  | [] => none
  | '0' :: 'x' :: d :: ds => digitsValue 16 (d :: ds) 0
  | c :: cs => digitsValue 10 (c :: cs) 0

/-- A number that fits in w bits. -/
def numberBits (w : Nat) (cs : List Char) : Option (BitVec w) :=
  (numberOf cs).bind fun n => if n < 2 ^ w then some (BitVec.ofNat w n) else none

/-- `<ch>`: R, G, B, W or a number 0..15 (30_encoding.md rule R71). -/
def channelText (w : List Char) : Option AsmChannel :=
  if w = ['R'] then some .r
  else if w = ['G'] then some .g
  else if w = ['B'] then some .b
  else if w = ['W'] then some .w
  else (numberBits 4 w).map .number

/-- `<fx>`: PULSE, BLINK, HEARTBEAT, RAINBOW or a number 0..15 (30_encoding.md rule R71). -/
def effectText (w : List Char) : Option AsmEffect :=
  if w = ['P', 'U', 'L', 'S', 'E'] then some .pulse
  else if w = ['B', 'L', 'I', 'N', 'K'] then some .blink
  else if w = ['H', 'E', 'A', 'R', 'T', 'B', 'E', 'A', 'T'] then some .heartbeat
  else if w = ['R', 'A', 'I', 'N', 'B', 'O', 'W'] then some .rainbow
  else (numberBits 4 w).map .number

/-- The colour of an entry: R, G, B or W. -/
def colourText (w : List Char) : Option Channel :=
  if w = ['R'] then some .red
  else if w = ['G'] then some .green
  else if w = ['B'] then some .blue
  else if w = ['W'] then some .white
  else none

/-- The kind of an entry: HW or SW. -/
def kindText (w : List Char) : Option EntryKind :=
  if w = ['H', 'W'] then some .hardwarePWM
  else if w = ['S', 'W'] then some .softwarePWM
  else none

/-- The numbers of a levels table after its bracket, and what follows it. -/
def levelsText : List Token → Option (List Word × List Token)
  | .closeBracket :: ts => some ([], ts)
  | .word w :: .closeBracket :: ts => (numberBits 32 w).map fun v => ([v], ts)
  | .word w :: .comma :: ts =>
    match numberBits 32 w, levelsText ts with
    | some v, some (vs, rest) => some (v :: vs, rest)
    | _, _ => none
  | _ => none

/-- The optional `P=` at the end of an entry; 0 when omitted. -/
def periodText : List Token → Option (Word × List Token)
  | .word ['P'] :: .equals :: .word w :: ts => (numberBits 32 w).map fun p => (p, ts)
  | ts => some (0, ts)

/-- The optional `L=[…]` of an entry, then its optional `P=`. -/
def tailText : List Token → Option (Option (List Word) × Word × List Token)
  | .word ['L'] :: .equals :: .openBracket :: ts =>
    match levelsText ts with
    | some (vs, rest) => (periodText rest).map fun pr => (some vs, pr.1, pr.2)
    | none => none
  | ts => (periodText ts).map fun pr => (none, pr.1, pr.2)

/-- One entry of a record, `R HW 255 L=[…] P=…`, and what follows it; `W -` stands for no entry. -/
def entryText : List Token → Option (List Entry × List Token)
  | .word c :: .word ['-'] :: ts => (colourText c).map fun _ => ([], ts)
  | .word c :: .word k :: .word m :: ts =>
    match colourText c, kindText k, numberBits 32 m, tailText ts with
    | some color, some kind, some maxBrightness, some (levels, hwPeriodNs, rest) =>
      some ([{ color, kind, maxBrightness, levels, hwPeriodNs }], rest)
    | _, _, _, _ => none
  | _ => none

/-- The entries of a record after its opening brace, to its closing brace, which ends the line; `fuel`
bounds their number. -/
def entriesText : Nat → List Token → Option ConfigRecord
  | 0, _ => none
  | fuel + 1, ts =>
    match entryText ts with
    | some (es, [.closeBrace]) => some es
    | some (es, .semicolon :: rest) => (entriesText fuel rest).map fun more => es ++ more
    | _ => none

/-- `<config>`: a record in braces (95_test_vectors.md conventions, 70_reset_and_hazards.md rule R138). -/
def configText : List Token → Option ConfigRecord
  | [.openBrace, .closeBrace] => some []
  | .openBrace :: ts => entriesText ts.length ts
  | _ => none

/-- A command or a pseudo-instruction without operands (30_encoding.md rules R71, R72). -/
def bareText (w : List Char) : Option AsmLine :=
  if w = ['U', 'P', 'D', 'A', 'T', 'E'] then some .update
  else if w = ['S', 'H', 'U', 'T', 'D', 'O', 'W', 'N'] then some .shutdown
  else if w = ['R', 'D', 'F', 'X'] then some .rdfx
  else if w = ['B', 'L', 'I', 'N', 'K'] then some .blink
  else if w = ['H', 'E', 'A', 'R', 'T', 'B', 'E', 'A', 'T'] then some .heartbeat
  else if w = ['R', 'A', 'I', 'N', 'B', 'O', 'W'] then some .rainbow
  else none

/-- A command or a pseudo-instruction with one operand (30_encoding.md rules R71, R72). -/
def unaryText (w x : List Char) : Option AsmLine :=
  if w = ['A', 'C', 'T'] then (effectText x).map fun fx => .act fx none
  else if w = ['D', 'E', 'A', 'C', 'T'] then (effectText x).map .deact
  else if w = ['R', 'D', 'B'] then (channelText x).map .rdb
  else if w = ['O', 'F', 'F'] then (channelText x).map .off
  else if w = ['P', 'U', 'L', 'S', 'E'] then (channelText x).map .pulse
  else none

/-- A command with two operands: SETB, and ACT with its channel (30_encoding.md rule R71). -/
def binaryText (w x y : List Char) : Option AsmLine :=
  if w = ['S', 'E', 'T', 'B'] then
    match channelText x, numberBits 32 y with
    | some ch, some v => some (.setb ch v)
    | _, _ => none
  else if w = ['A', 'C', 'T'] then
    match effectText x, channelText y with
    | some fx, some ch => some (.act fx (some ch))
    | _, _ => none
  else none

/-- The command of a line (30_encoding.md rules R71, R72).  FIRE and TICK have no line (rule R67). -/
def commandText : List Token → Option AsmLine
  | .word ['I', 'N', 'I', 'T'] :: ts => (configText ts).map .init
  | [.word w] => bareText w
  | [.word w, .word x] => unaryText w x
  | [.word w, .word x, .comma, .word y] => binaryText w x y
  | _ => none

/-- One line: blank, a directive `@<t>`, a command, or a directive with a command behind it
(30_encoding.md rule R71, 95_test_vectors.md conventions). -/
def lineTokens : List Token → Option (List AsmLine)
  | [] => some []
  | .word ('@' :: t) :: ts =>
    match numberBits 64 t, ts with
    | some time, [] => some [.issueAt time]
    | some time, ts => (commandText ts).map fun l => [.issueAt time, l]
    | none, _ => none
  | ts => (commandText ts).map fun l => [l]

/-- One line of characters. -/
def lineText (cs : List Char) : Option (List AsmLine) := lineTokens (dropComment false (tokens cs []))

/-- The lines of a text; `acc` is the line gathered so far, latest character first. -/
def linesOf : List Char → List Char → List (List Char)
  | [], acc => [acc.reverse]
  | '\n' :: cs, acc => acc.reverse :: linesOf cs []
  | c :: cs, acc => linesOf cs (c :: acc)

/-- The lines of a text read one by one; `none` where one of them is no line. -/
def programLines : List (List Char) → Option (List AsmLine)
  | [] => some []
  | l :: ls =>
    match lineText l, programLines ls with
    | some a, some b => some (a ++ b)
    | _, _ => none

/-- A text assembled into commands with their issue times, from time 0 on (30_encoding.md rule R71). -/
def assembleText (cs : List Char) : Option (List (Time × Instr)) :=
  (programLines (linesOf cs [])).bind fun ls => assemble ls 0

end Sys2Proof.Machine
end

