-- ==== Sys2Proof/Tests/Slice0.lean ====
section
/-! SUPPORT. Tests of the model on one step each, with expected results from spec/95_test_vectors.md and the
rules' own examples, and a witness for every obligation that has hypotheses. -/

namespace Sys2Proof.Tests

open Sys2Proof Sys2Proof.Machine

/-! ## Helpers -/

/-- A HardwarePWM entry without a levels table (95_test_vectors.md, conventions). -/
def hw (c : Channel) (m p : Word) : Entry :=
  { color := c, kind := .hardwarePWM, maxBrightness := m, levels := none, hwPeriodNs := p }

/-- A SoftwarePWM entry without a levels table. -/
def sw (c : Channel) (m : Word) : Entry :=
  { color := c, kind := .softwarePWM, maxBrightness := m, levels := none, hwPeriodNs := 0 }

/-- CFG-A of 95_test_vectors.md. -/
def cfgA : ConfigRecord :=
  [hw .red 255 7650000, hw .green 255 7650000, hw .blue 255 7650000, sw .white 255]

/-- CFG-B of 95_test_vectors.md: White Unassigned. -/
def cfgB : ConfigRecord := [hw .red 255 7650000, hw .green 255 7650000, hw .blue 255 7650000]

/-- The configuration of V-IN-15: four SoftwarePWM channels. -/
def cfgS : ConfigRecord := [sw .red 255, sw .green 255, sw .blue 255, sw .white 255]

/-- The state of a next outcome, and the reset state otherwise. -/
def nextOf (o : Host.Outcome State Fault Refusal) : State :=
  match o with
  | .next s => s
  | .fault _ => State.reset
  | .refused _ => State.reset

/-- The block right after a successful INIT of CFG-A. -/
def runA : State := nextOf (exec (.init cfgA) State.reset)

/-- The block right after a successful INIT of CFG-B. -/
def runB : State := nextOf (exec (.init cfgB) State.reset)

/-- The block right after a successful INIT of V-IN-15. -/
def runS : State := nextOf (exec (.init cfgS) State.reset)

/-- `BRIGHT[0..3]` as numbers. -/
def bright (s : State) : List Nat := allChannels.map fun c => (s.brightOf c).toNat

/-- Brightness written by hand. -/
def colour (r g b w : Word) : Bank Word := { red := r, green := g, blue := b, white := w }

/-- The events of a log without their times. -/
def events (s : State) : List (Channel × PortEvent) := s.log.map fun e => (e.channel, e.event)

/-- The status of the last response. -/
def status (s : State) : Option Status := s.response.map Response.status

/-- Status and result of the last response. -/
def answer (s : State) : Option (Status × Nat) := s.response.map fun r => (r.status, r.result.toNat)

/-- Heartbeat active on CFG-B at 300 ms, at its step 2 with the saved colour [200,0,0,0] (program PR2). -/
def runH : State :=
  { runB with
    bright := colour 200 0 0 0, savedColor := colour 200 0 0 0, activeMask := 4, fxStep := 2,
    fxt := runB.fxt.set .heartbeat (Timer.arm 300000000), nowNs := 300000000 }

/-- Effect k active on four SoftwarePWM channels, with a STEP and a saved colour, at time 1000. -/
def runFx (k : Effect) (step : Word) (saved : Bank Word) : State :=
  { runS with
    activeMask := effectBit k, fxStep := step, savedColor := saved, nowNs := 1000,
    pulseCh := if k = .pulse then some .white else none }

/-- A SoftwarePWM channel White with the given maximum, LTH, brightness and level at time t (95_test_vectors.md
section 2.3). -/
def soft (p m l b : Word) (level : Level) (t : Time) : State :=
  { runA with
    periodNs := p, maxb := runA.maxb.set .white m, lth := runA.lth.set .white l,
    bright := runA.bright.set .white b, swLevel := runA.swLevel.set .white level, nowNs := t,
    log := [] }

/-- What a FIRE of White leaves. -/
structure Fired where
  level    : Level
  armed    : Bool
  deadline : Nat
  events   : List (Channel × PortEvent)
  deriving DecidableEq, Repr

/-- White's level and timer after a FIRE of White, and the log's events. -/
def fired (s : State) : Fired :=
  let t := nextOf (exec (.fire 3) s)
  ⟨t.swLevel.white, t.swt.white.armed, t.swt.white.deadline.toNat, events t⟩

/-- A HardwarePWM channel Red with the given period, maximum and levels table, its LTH being P / M. -/
def hard (p m : Word) (table : Option (List Word)) : State :=
  { runB with
    periodNs := p, maxb := runB.maxb.set .red m, lth := runB.lth.set .red (p / m),
    levels := runB.levels.set .red table, log := [] }

/-- The events of a procedure that ends well. -/
def procEvents : Proc → Option (List (Channel × PortEvent))
  | .ok s => some (events s)
  | .stop _ _ => none

/-! ## Well-formedness: each check refuses an ill-formed term -/

theorem test_wellFormed_fire :
    (Instr.fire 4).wellFormed = false ∧ (Instr.fire 15).wellFormed = false ∧
    (Instr.fire 3).wellFormed = true := by decide

theorem test_wellFormed_act_line :
    (AsmLine.act .pulse none).wellFormed = false ∧ (AsmLine.act (.number 0) none).wellFormed = false ∧
    (AsmLine.act .blink (some .r)).wellFormed = false ∧ (AsmLine.act .blink (some .r)).command = none ∧
    (AsmLine.act .pulse (some .w)).wellFormed = true := by decide

theorem test_validConfig_refuses :
    [[hw .red 255 7650000, hw .green 255 0],
      [hw .red 255 1, hw .green 255 1, hw .blue 255 1, hw .white 255 1, hw .white 255 1],
      [hw .red 255 1000, hw .red 255 0, hw .green 255 0, hw .blue 255 0],
      [hw .green 255 7650000, hw .blue 255 0, sw .white 255],
      [hw .red 0 7650000, hw .green 255 0, hw .blue 255 0],
      [{ hw .red 3 1000 with levels := some [0, 1, 2] }, hw .green 3 0, hw .blue 3 0],
      [{ hw .red 3 1000 with levels := some [0, 2, 1, 3] }, hw .green 3 0, hw .blue 3 0],
      [{ hw .red 3 1000 with levels := some [0, 1, 2, 4] }, hw .green 3 0, hw .blue 3 0],
      [hw .red 255 0, hw .green 255 5000, hw .blue 255 0],
      [sw .red 255, sw .green 255, sw .blue 10000000],
      [hw .red 255 100, hw .green 255 0, sw .blue 255]].map validConfig =
      List.replicate 11 false := by decide

theorem test_validConfig_accepts :
    validConfig cfgA = true ∧ validConfig cfgB = true ∧ validConfig cfgS = true ∧
    validConfig [{ hw .red 3 1000 with levels := some [0, 0, 1, 3] }, hw .green 3 0, hw .blue 3 0] = true ∧
    validConfig [hw .red 255 100, hw .green 255 0, hw .blue 255 0] = true := by decide

/-! ## Decoding: every row's word written out from 30_encoding.md rule R64, OP CH EF RSV -/

theorem test_decode_setb :
    decode [0b00000001_0011_0000_0000000000000000, 0x00000064, 7] [] = .instr (.setb 3 100) [7] [] ∧
    decode [0b00000001_1111_0000_0000000000000000, 0] [] = .instr (.setb 15 0) [] [] := by decide

theorem test_decode_update :
    decode [0b00000010_0000_0000_0000000000000000] [] = .instr .update [] [] := by decide

theorem test_decode_act :
    decode [0b00000011_0011_0000_0000000000000000] [] = .instr (.act 3 0) [] [] ∧
    decode [0b00000011_1111_0111_0000000000000000] [] = .instr (.act 15 7) [] [] := by decide

theorem test_decode_deact :
    decode [0b00000100_0000_0010_0000000000000000] [] = .instr (.deact 2) [] [] ∧
    decode [0b00000100_0000_1111_0000000000000000] [] = .instr (.deact 15) [] [] := by decide

theorem test_decode_shutdown :
    decode [0b00000101_0000_0000_0000000000000000] [] = .instr .shutdown [] [] := by decide

theorem test_decode_rdb :
    decode [0b00000110_0001_0000_0000000000000000] [] = .instr (.rdb 1) [] [] ∧
    decode [0b00000110_0100_0000_0000000000000000] [] = .instr (.rdb 4) [] [] := by decide

theorem test_decode_rdfx :
    decode [0b00000111_0000_0000_0000000000000000] [] = .instr .rdfx [] [] := by decide

theorem test_decode_init :
    decode [0b00010000_0000_0000_0000000000000000, 5] [cfgB, cfgA] = .instr (.init cfgB) [5] [cfgA] := by
  decide

theorem test_decode_fire :
    decode [0b10000000_0011_0000_0000000000000000] [] = .instr (.fire 3) [] [] := by decide

theorem test_decode_ticks :
    decode [0b10000001_0000_0000_0000000000000000] [] = .instr .tickPulse [] [] ∧
    decode [0b10000001_0000_0001_0000000000000000] [] = .instr .tickBlink [] [] ∧
    decode [0b10000001_0000_0010_0000000000000000] [] = .instr .tickHeartbeat [] [] ∧
    decode [0b10000001_0000_0011_0000000000000000] [] = .instr .tickRainbow [] [] := by decide

/-- V-EN-2, 3, 6, 12, 18, 22 to 25, by name. -/
theorem test_decode_rejects_by_name :
    decode [0x01000001, 9] [] = .illegal .reservedBitsNotZero [9] ∧
    decode [0x01010000] [] = .illegal .effectFieldNotZero [] ∧
    decode [0x02100000] [] = .illegal .channelFieldNotZero [] ∧
    decode [0x04120000] [] = .illegal .channelFieldNotZero [] ∧
    decode [0x07000100] [] = .illegal .reservedBitsNotZero [] ∧
    decode [0x81040000] [] = .illegal .noSuchTick [] ∧
    decode [0x81100000] [] = .illegal .channelFieldNotZero [] ∧
    decode [0x00000000] [] = .illegal .reservedOpcode [] ∧
    decode [0x08000000] [] = .illegal .reservedOpcode [] ∧
    decode [0xFFFFFFFF] [] = .illegal .reservedOpcode [] := by decide

theorem test_decode_waits_for_operands :
    decode [] [cfgA] = .incomplete ∧ decode [0x01300000] [] = .incomplete ∧
    decode [0x10000000] [] = .incomplete := by decide

/-- 20_memory.md rule R50: byte 0 is bits 7:0. -/
theorem test_decode_bytes :
    decodeBytes [0x00, 0x00, 0x30, 0x01, 0x64, 0x00, 0x00, 0x00] [] = .instr (.setb 3 100) [] [] := by
  decide

theorem test_decodeTableWord :
    decodeTableWord 32 0x01300000 = some (.setb 3 0) ∧
    decodeTableWord 64 0x0000006401300000 = some (.setb 3 100) ∧
    decodeTableWord 32 0x10000000 = some (.init []) ∧
    decodeTableWord 32 0x81020000 = some .tickHeartbeat ∧ decodeTableWord 32 0x81040000 = none := by decide

theorem test_withFetchWord_command :
    answer (nextOf (step (State.reset.withFetchWord 32 0x01300000))) = some (.invalidState, 0) ∧
    answer (nextOf (step (State.reset.withFetchWord 32 0x07000000))) = some (.ok, 0) ∧
    answer (nextOf (step (State.reset.withFetchWord 32 0x10000000))) = some (.configurationError, 0) := by
  decide

theorem test_withFetchWord_event :
    events (nextOf (step (runA.withFetchWord 32 0x80300000))) = events runA ++ [(.white, .gpioWrite .low)] ∧
    (nextOf (step (runA.withFetchWord 32 0x81020000))).fxt.heartbeat.armed = false ∧
    (runA.withFetchWord 32 0x81020000).fxt.heartbeat.armed = true := by decide

/-! ## The assembler -/

theorem test_assemble_line :
    lineText "SETB  W, 100        ; 0x01300000".toList = some [.setb .w 100] ∧
    lineText "@180000000   DEACT BLINK".toList = some [.issueAt 180000000, .deact .blink] ∧
    lineText "ACT PULSE, 12".toList = some [.act .pulse (some (.number 12))] ∧
    lineText "TICK.PULSE".toList = none ∧ lineText "".toList = some [] := by decide

theorem test_assemble_record :
    lineText ("INIT ".toList ++ charOpenBrace :: "R HW 3 L=[0,0x0,1,3] P=1000; B SW 7; W -".toList ++
        [charCloseBrace]) =
      some [.init [{ hw .red 3 1000 with levels := some [0, 0, 1, 3] }, sw .blue 7]] := by decide

theorem test_assemble_text :
    assembleText "OFF G\n@75000000\nBLINK ; now\nRDB W".toList =
      some [(0, .setb 1 0), (75000000, .act 0 1), (75000000, .rdb 3)] := by decide

/-! ## The mapper (95_test_vectors.md section 2.2) -/

/-- V-CU-2, 4, 7, 8, 10, 11, 17, 18. -/
theorem test_dutyWord :
    [1, 100, 254, 255].map (dutyWord 30000 7650000 255) = [59882, 3018235, 7620117, 7650000] ∧
    [1, 2, 255].map (dutyWord 1 255 255) = [1, 2, 255] ∧
    [1, 3, 254, 255].map (dutyWord 0 100 255) = [0, 1, 99, 100] ∧
    [1, 2147483648, 4294967295].map (dutyWord 1 4294967295 4294967295) = [1, 2147483648, 4294967295] ∧
    dutyWord 4294967295 4294967295 1 1 = 4294967295 := by decide

/-- V-CU-19 and V-CU-22: the events for the brightness the hook gave. -/
theorem test_driveChannel_hardware :
    procEvents (driveChannel .red 200 (hard 7650000 255 none)) =
      some [(.red, .pwmSet 6006470 7650000), (.red, .pwmEnable), (.red, .notifyAfter 200)] ∧
    procEvents (driveChannel .red 0 (hard 7650000 255 none)) =
      some [(.red, .pwmDisable), (.red, .notifyAfter 0)] := by decide

/-- V-CU-16: the zero check is on b, not on the table's entry. -/
theorem test_driveChannel_table :
    procEvents (driveChannel .red 1 (hard 1000 3 (some [0, 0, 1, 3]))) =
      some [(.red, .pwmSet 333 1000), (.red, .pwmEnable), (.red, .notifyAfter 1)] ∧
    procEvents (driveChannel .red 2 (hard 1000 3 (some [0, 0, 1, 3]))) =
      some [(.red, .pwmSet 555 1000), (.red, .pwmEnable), (.red, .notifyAfter 2)] := by decide

/-! ## Host commands -/

/-- V-FA-6: SETB of a stopped SoftwarePWM channel arms its timer at once. -/
theorem test_setb :
    let t := nextOf (exec (.setb 3 100) { runA with nowNs := 5000 })
    bright t = [0, 0, 0, 100] ∧ t.swt.white = { armed := true, deadline := 5000 } ∧
      answer t = some (.ok, 0) ∧ t.pin = runA.pin := by decide

/-- V-FA-2, V-EN-1 on CFG-B, and the precedence V-PR-1. -/
theorem test_setb_errors :
    answer (nextOf (exec (.setb 1 256) runA)) = some (.invalidBrightness, 0) ∧
    answer (nextOf (exec (.setb 3 100) runB)) = some (.invalidChannel, 0) ∧
    answer (nextOf (exec (.setb 4 0xFFFFFFFF) runB)) = some (.invalidChannel, 0) ∧
    answer (nextOf (exec (.setb 0 1) State.reset)) = some (.invalidState, 0) := by decide

/-- 43_facade.md rule R110, on channels that are all SoftwarePWM (V-FA-7). -/
theorem test_update :
    let t := nextOf (exec .update { runS with nowNs := 40, swt := runS.swt.set .green (Timer.arm 9) })
    t.swt = { red := Timer.arm 40, green := Timer.arm 9, blue := Timer.arm 40, white := Timer.arm 40 } ∧
      answer t = some (.ok, 0) ∧ bright t = [0, 0, 0, 0] := by decide

theorem test_update_before_init :
    answer (nextOf (exec .update State.reset)) = some (.invalidState, 0) := by decide

/-- V-FX-1. -/
theorem test_act :
    let t := nextOf (exec (.act 0 2) { runB with bright := colour 200 0 0 0, nowNs := 7 })
    t.savedColor = colour 200 0 0 0 ∧ t.activeMask = 4 ∧ t.fxStep = 0 ∧ t.pulseCh = none ∧
      t.fxt.heartbeat = { armed := true, deadline := 100000007 } ∧ t.log = runB.log := by decide

/-- V-FX-3 on SoftwarePWM channels: the new snapshot is the saved colour, the old timer stays armed. -/
theorem test_act_replaces :
    let s := { runFx .heartbeat 1 (colour 200 0 0 0) with fxt := runS.fxt.set .heartbeat (Timer.arm 77) }
    let t := nextOf (exec (.act 3 1) s)
    bright t = [200, 0, 0, 0] ∧ t.savedColor = colour 200 0 0 0 ∧ t.activeMask = 2 ∧
      t.fxt.heartbeat = Timer.arm 77 ∧ t.fxt.blink.armed = true := by decide

/-- V-FX-6 on SoftwarePWM channels, and V-FX-5. -/
theorem test_deact :
    let s := { runFx .blink 1 (colour 10 20 30 0) with fxt := runS.fxt.set .blink (Timer.arm 77) }
    let t := nextOf (exec (.deact 1) s)
    bright t = [10, 20, 30, 0] ∧ t.activeMask = 0 ∧ t.fxt = s.fxt ∧
      (nextOf (exec (.deact 2) s)).activeMask = 2 ∧ bright (nextOf (exec (.deact 2) s)) = [0, 0, 0, 0] := by
  decide

/-- V-EN-9, V-EN-10, V-EN-13. -/
theorem test_act_deact_errors :
    answer (nextOf (exec (.act 0 4) runB)) = some (.invalidEffect, 0) ∧
    answer (nextOf (exec (.act 15 7) runB)) = some (.invalidEffect, 0) ∧
    answer (nextOf (exec (.act 3 0) runB)) = some (.invalidChannel, 0) ∧
    answer (nextOf (exec (.deact 15) runB)) = some (.invalidEffect, 0) := by decide

/-- V-FA-8. -/
theorem test_shutdown :
    let s := { runA with
      log := [], activeMask := 4, bright := colour 200 0 0 50, savedColor := colour 1 2 3 4,
      fxt := runA.fxt.set .heartbeat (Timer.arm 9), swt := runA.swt.set .white (Timer.arm 8),
      swLevel := runA.swLevel.set .white .high }
    let t := nextOf (exec .shutdown s)
    events t = [(.red, .pwmDisable), (.green, .pwmDisable), (.blue, .pwmDisable), (.white, .gpioWrite .low),
        (.red, .release), (.green, .release), (.blue, .release), (.white, .release)] ∧
      bright t = [0, 0, 0, 0] ∧ t.lifecycle = .shutdown ∧ t.activeMask = 0 ∧
      t.swt.white = { armed := false, deadline := 8 } ∧ t.fxt.heartbeat.armed = false ∧
      t.swLevel.white = .low ∧ t.acquired = Bank.all false ∧ t.savedColor = colour 1 2 3 4 := by decide

/-- V-FA-9. -/
theorem test_shutdown_twice :
    answer (nextOf (exec .shutdown (nextOf (exec .shutdown runA)))) = some (.invalidState, 0) := by decide

/-- V-FA-10, V-FA-11, V-EN-16. -/
theorem test_rdb :
    answer (nextOf (exec (.rdb 2) { runA with bright := colour 1 2 77 3 })) = some (.ok, 77) ∧
    answer (nextOf (exec (.rdb 3) runB)) = some (.ok, 0) ∧
    answer (nextOf (exec (.rdb 4) runB)) = some (.invalidChannel, 0) := by decide

/-- V-FA-12. -/
theorem test_rdfx :
    answer (nextOf (exec .rdfx { runA with activeMask := 4 })) = some (.ok, 4) ∧
    answer (nextOf (exec .rdfx State.reset)) = some (.ok, 0) := by decide

/-- V-IN-1. -/
theorem test_init :
    events runA = [(.red, .acquire), (.green, .acquire), (.blue, .acquire), (.white, .acquire),
        (.red, .pwmDisable), (.green, .pwmDisable), (.blue, .pwmDisable), (.white, .gpioWrite .low)] ∧
      answer runA = some (.ok, 0) ∧ runA.lifecycle = .running ∧ runA.periodNs = 7650000 ∧
      runA.lth = Bank.all 30000 ∧ runA.pin.white = some .low ∧ runA.generator.red.enabled = some false ∧
      runA.generator.red.dutyNs = none := by decide

/-- V-IN-16, V-IN-18 and V-IN-20. -/
theorem test_init_failures :
    let t := nextOf (exec (.init cfgB) { State.reset with oracle := ⟨true, true, false, true⟩ })
    answer t = some (.resourceUnavailable, 0) ∧ t.lifecycle = .unconfigured ∧ t.kind = Bank.all .unassigned ∧
      events t = [(.red, .acquire), (.green, .acquire), (.green, .release), (.red, .release)] ∧
      answer (nextOf (exec (.init cfgB) runB)) = some (.invalidState, 0) ∧
      (events (nextOf (exec (.init (sw .white 255 :: cfgB)) State.reset))).take 4 =
        [(.white, .acquire), (.red, .acquire), (.green, .acquire), (.blue, .acquire)] := by decide

/-! ## Timer events -/

/-- V-FI-1, V-FI-2, V-FI-15. -/
theorem test_fire_toggles :
    fired (soft 7650000 255 30000 100 .low 0) = ⟨.high, true, 3000000, [(.white, .gpioWrite .high)]⟩ ∧
    fired (soft 7650000 255 30000 100 .high 3000000) =
      ⟨.low, true, 7650000, [(.white, .gpioWrite .low)]⟩ ∧
    fired (soft 4294967295 4294967295 1 4294967294 .high 5) =
      ⟨.low, true, 6, [(.white, .gpioWrite .low)]⟩ := by decide

/-- V-FI-7, V-FI-8, and the defensive fault V-FI-17, which drives nothing. -/
theorem test_fire_steady_or_fault :
    let t := nextOf (exec (.fire 3) (soft 7650000 255 0 1 .low 0))
    fired (soft 7650000 255 30000 255 .low 9) = ⟨.high, false, 0, [(.white, .gpioWrite .high)]⟩ ∧
      fired (soft 7650000 255 30000 0 .high 9) = ⟨.low, false, 0, [(.white, .gpioWrite .low)]⟩ ∧
      t.fault = .intervalNonpositive ∧ t.faultBy = some (.fire 3) ∧ t.log = [] ∧
      t.pin.white = some .low := by decide

/-- V-TK-1 and V-TK-2 (with White as the target), and V-TK-11. -/
theorem test_tickPulse :
    let t := nextOf (exec .tickPulse (runFx .pulse 5 (Bank.all 0)))
    bright t = [0, 0, 0, 6] ∧ t.fxStep = 6 ∧ t.fxt.pulse = { armed := true, deadline := 10001000 } ∧
      (nextOf (exec .tickPulse (runFx .pulse 74 (Bank.all 0)))).fxStep = 0 ∧
      nextOf (exec .tickPulse runS) = runS := by decide

/-- V-TK-5 and V-TK-6. -/
theorem test_tickBlink :
    let s := { runFx .blink 0 (colour 5 6 7 8) with bright := colour 5 6 7 8 }
    let t := nextOf (exec .tickBlink s)
    bright t = [0, 0, 0, 0] ∧ t.fxStep = 1 ∧
      bright (nextOf (exec .tickBlink (runFx .blink 1 (colour 5 6 7 8)))) = [5, 6, 7, 8] ∧
      (nextOf (exec .tickBlink (runFx .blink 1 (colour 5 6 7 8)))).fxStep = 0 := by decide

/-- V-TK-9 and V-TK-10. -/
theorem test_tickHeartbeat :
    let t := nextOf (exec .tickHeartbeat (runFx .heartbeat 2 (colour 200 0 0 0)))
    let u := nextOf (exec .tickHeartbeat (runFx .heartbeat 3 (colour 200 0 0 0)))
    bright t = [0, 0, 0, 0] ∧ t.fxStep = 3 ∧ t.fxt.heartbeat = Timer.arm 700001000 ∧
      bright u = [200, 0, 0, 0] ∧ u.fxStep = 0 ∧ u.fxt.heartbeat = Timer.arm 100001000 := by decide

/-- V-RB-2, V-RB-4, V-RB-12, with White at 9. -/
theorem test_tickRainbow :
    let s := { runFx .rainbow 254 (Bank.all 0) with bright := colour 0 0 0 9 }
    let t := nextOf (exec .tickRainbow s)
    let u := nextOf (exec .tickRainbow { s with phase := 1 })
    let v := nextOf (exec .tickRainbow { s with phase := 5 })
    bright t = [255, 254, 0, 9] ∧ t.phase = 1 ∧ t.fxStep = 0 ∧ bright u = [1, 255, 0, 9] ∧ u.phase = 2 ∧
      bright v = [255, 0, 1, 9] ∧ v.phase = 0 := by decide

/-- V-RB-13: channels of different maxima. -/
theorem test_tickRainbow_mixed :
    let s := { runFx .rainbow 99 (Bank.all 0) with maxb := colour 255 100 255 255 }
    let t := nextOf (exec .tickRainbow s)
    bright t = [255, 99, 0, 0] ∧ t.phase = 1 ∧ bright (nextOf (exec .tickRainbow t)) = [255, 100, 0, 0] := by
  decide

/-! ## The step and its agents -/

/-- V-EN-20: an EVT word from the host. -/
theorem test_host_cannot_fire :
    let t := nextOf (step { runA with agenda := [.host runA.oracle], cmdPort := [0x80300000, 5] })
    answer t = some (.illegalCommand, 0) ∧ t.cmdPort = [5] ∧ t.log = runA.log := by decide

/-- 10_state.md rule R31: a timer fires only when it is due. -/
theorem test_event_needs_a_due_timer :
    let s := { soft 7650000 255 30000 100 .low 10 with
      swt := runA.swt.set .white (Timer.arm 11), agenda := [.event 0x80300000] }
    (nextOf (step s)).log = [] ∧
      events (nextOf (step { s with nowNs := 11 })) = [(.white, .gpioWrite .high)] := by decide

/-- 10_state.md rule R34: sticky until reset. -/
theorem test_fault_is_sticky :
    step { runA with fault := .invariantViolation, agenda := [.advance 5] } =
      .fault (.halted .invariantViolation) ∧
    nextOf (step { runA with fault := .invariantViolation, agenda := [.reset] }) = State.reset := by
  constructor
  · rfl
  · decide

/-- 60_exceptions.md rule R127: effect timers before soft-PWM timers, then the host, then ADVANCE. -/
theorem test_reference_scheduler :
    let s := { runA with nowNs := 9, swt := runA.swt.set .white (Timer.arm 9) }
    referenceMove s.oracle (some 9) { s with fxt := s.fxt.set .rainbow (Timer.arm 9) } =
        some (.event 0x81030000) ∧
      referenceMove s.oracle (some 9) s = some (.event 0x80300000) ∧
      referenceMove s.oracle (some 9) runA = some (.advance 9) ∧
      referenceMove s.oracle (some 0) runA = some (.host s.oracle) ∧
      referenceMove s.oracle none runA = none := by decide

/-- 10_state.md rule R38 and R29. -/
theorem test_registers :
    (Reg.bright .white).id = 0x0B ∧ (Reg.fxtDeadline .heartbeat).id = 0x2E ∧ (Reg.pin .blue).id = 0x4E ∧
    ({ runA with pulseCh := some .blue } : State).reg .pulseCh = .number 6 ∧
    runA.reg (.genDutyNs .red) = .unknown ∧ runA.reg (.kind .white) = .number 2 := by decide

/-! ## Witnesses: for every obligation with hypotheses, data that meet them all -/

/-- A state without levels tables covers every table read. -/
theorem covers_without_tables {s : State} (h : s.levels = Bank.all none) : s.TablesCover := by
  intro c t ht
  have hn : s.levels.get c = none := by rw [h]; cases c <;> rfl
  unfold State.levelsOf at ht
  split at ht <;> simp [hn] at ht

theorem runA_covers : runA.TablesCover := covers_without_tables (by decide)

theorem runB_covers : runB.TablesCover := covers_without_tables (by decide)

theorem runFx_covers (k : Effect) (step : Word) (saved : Bank Word) : (runFx k step saved).TablesCover :=
  covers_without_tables (by cases k <;> rfl)

/-- V-CU-15's table on Red, whose greatest index 10 is in range. -/
theorem table_covers :
    (hard 7650000 10 (some [0, 1, 1, 2, 3, 4, 5, 6, 8, 9, 10])).TablesCover := by
  intro c t h
  cases c
  · have ht : [0, 1, 1, 2, 3, 4, 5, 6, 8, 9, 10] = t := Option.some.inj h
    subst ht
    decide
  · exact nomatch (show (none : Option (List Word)) = some t from h)
  · exact nomatch (show (none : Option (List Word)) = some t from h)
  · exact nomatch (show (none : Option (List Word)) = some t from h)

theorem runH_invariants : runH.Invariants where
  brightBounded := by intro c; cases c <;> decide
  oneEffect := .inr ⟨.heartbeat, by decide⟩
  unassignedZero := by intro c; cases c <;> decide
  softTimersLive := by intro c; cases c <;> decide
  quietUnlessRunning := fun h => absurd (by decide) h
  pulseHasTarget := fun h => absurd h (by decide)

theorem runH_good : runH.Good where
  noFault := by decide
  invariants := runH_invariants
  stepInRange := by
    intro k h
    have hk : k = .heartbeat := by cases k <;> first | rfl | exact absurd h (by decide)
    subst hk
    decide
  configured := fun _ =>
    { colours := by decide
      period := by decide
      maxima := by intro c; cases c <;> decide
      shortest := by intro c; cases c <;> decide
      softPulse := by intro c; cases c <;> decide
      tables := by intro c t h; exact absurd h (by cases c <;> simp [show runH.levels = Bank.all none by decide, Bank.get, Bank.all]) }
  unconfigured := fun h => absurd h (by decide)

theorem test_witness_DecodingLosesNothing :
    decode [0x01300000, 100, 7] [cfgA] = .instr (.setb 3 100) [7] [cfgA] ∧
    decode [0x10000000] [cfgA] = .instr (.init cfgA) [] [] := by decide

theorem test_witness_OpcodeRowsDoNotOverlap :
    let r : OpcodeRow := ⟨.tickRainbow, 0x81030000, 0xFFFFFFFF⟩
    r ∈ opcodeRows ∧ r.holds 0x81030000 = true := by decide

theorem test_witness_BytesAreLittleEndian : 3 < 4 ∧ (bytesOfWord 0x01300064)[3]? = some 0x01 := by decide

theorem test_witness_StepRunsHostCommand :
    let s := { runA with agenda := [.host runA.oracle], cmdPort := [0x01300000, 100] }
    s.fault = .none ∧ decode s.cmdPort s.cfgPort = .instr (.setb 3 100) [] [] ∧
      (Instr.setb 3 100).isEvent = false := by decide

theorem test_witness_StepRunsDueEvent :
    let s := { runH with agenda := [.event 0x81020000] }
    s.fault = .none ∧ decode [0x81020000] [] = .instr .tickHeartbeat [] [] ∧
      eventTimer .tickHeartbeat = some (.effect .heartbeat) ∧ (s.timer (.effect .heartbeat)).armed = true ∧
      (s.timer (.effect .heartbeat)).deadline ≤ s.nowNs := by decide

theorem test_witness_IllegalHostWord :
    runA.fault = .none ∧ (∀ r ∈ hostRows, r.holds 0x01000001 = false) ∧
    (∀ r ∈ hostRows, r.holds 0x80300000 = false) ∧
    decode [0x01300000, 100, 7] [] = .instr (.setb 3 100) [7] [] ∧
    decode [0x02000000, 100] [] = .instr .update [100] [] := by decide

theorem test_witness_OnlyTheTimerUnitRaisesEvents :
    (∃ r ∈ eventRows, r.holds 0x80F00000 = true) ∧ runA.fault = .none ∧
    ∀ id : TimerId, (runA.timer id).armed = true → (runA.timer id).deadline ≤ runA.nowNs →
      id.word ≠ 0x81020000 := by
  refine ⟨by decide, by decide, ?_⟩
  rintro (c | k)
  · cases c <;> decide
  · cases k <;> decide

/-- At the last moment an armed timer admits, with no latency used, and at NOW_NS itself. -/
theorem test_witness_AdvanceMovesTheClock :
    let s := { runH with nowNs := 5, agenda := [.advance 300000000] }
    s.fault = .none ∧
      (s.nowNs < 300000000 ∧ ∀ id : TimerId, (s.timer id).armed = true →
        (300000000 : Time).toNat ≤ (s.timer id).deadline.toNat + Config.timerLatencyMaxNs) ∧
      ¬ (runH.nowNs < runH.nowNs) := by
  refine ⟨by decide, ⟨by decide, ?_⟩, by decide⟩
  rintro (c | k) h
  · exact absurd h (by cases c <;> decide)
  · have hk : k = .heartbeat := by cases k <;> first | rfl | exact absurd h (by decide)
    subst hk
    exact Nat.le_add_right _ _

theorem test_witness_TimeMovesOnlyByAdvance :
    let s := { runA with agenda := [.advance 5] }
    (∃ u, step s = .next u ∧ u.nowNs ≠ s.nowNs) ∧
      ∃ u, step { runH with agenda := [.reset] } = .next u ∧ u.nowNs ≠ runH.nowNs :=
  ⟨⟨_, rfl, by decide⟩, ⟨_, rfl, by decide⟩⟩

theorem runH_punctual : runH.Punctual := by
  rintro (c | k) h
  · exact absurd h (by cases c <;> decide)
  · have hk : k = .heartbeat := by cases k <;> first | rfl | exact absurd h (by decide)
    subst hk
    exact Nat.le_add_right _ _

theorem test_witness_ClockNeverOverrunsADeadline :
    runH.Punctual ∧ step runH = .next runH ∧ (runH.timer (.effect .heartbeat)).armed = true :=
  ⟨runH_punctual, rfl, by decide⟩

/-- A faulted block whose host wants to go on, and the one whose platform resets it. -/
def faulted (m : Action) : State := { runA with fault := .intervalNonpositive, agenda := [m] }

theorem test_witness_FaultStopsTheBlock :
    (faulted (.advance 5)).fault ≠ .none ∧
    (∀ rest : List Action, (faulted (.advance 5)).agenda ≠ .reset :: rest) ∧
    (faulted .reset).agenda = [.reset] := by
  refine ⟨by decide, ?_, rfl⟩
  intro rest h
  cases (List.cons.inj h).1

theorem test_witness_ResetStartsAgain :
    let s := { runH with fault := .invariantViolation, agenda := [.reset, .advance 3] }
    s.agenda = .reset :: [.advance 3] ∧
      (nextOf (exec (.init cfgA) (nextOf (step s)))).response = some { status := .ok, result := 0 } := by
  decide

theorem test_witness_StepAlwaysAnswers : runH.fault = .none := by decide

theorem test_witness_IdleBlockWaits : runH.fault = .none ∧ runH.agenda = [] := by decide

/-- The INIT of a block just reset, and a tick of a running one. -/
theorem test_witness_InvariantsKept :
    runH.fault = .none ∧ runH.Invariants ∧
      ∃ u, step { runH with agenda := [.advance 300000001], fxt := runS.fxt } = .next u ∧ u.fault = .none :=
  ⟨by decide, runH_invariants, _, rfl, by decide⟩

theorem test_witness_GoodStatesStayGood : runH.Good ∧ step runH = .next runH := ⟨runH_good, rfl⟩

theorem test_witness_NoFaultFromReset :
    ({ State.reset with
      agenda := [.host State.reset.oracle, .event 0x80300000], cmdPort := [0x10000000],
      cfgPort := [cfgA] } : State).AfterReset := rfl

/-- A rejected SETB, and an INIT whose third handle is refused. -/
theorem test_witness_FailedCommandWritesNothing :
    (∃ u r, exec (.setb 1 256) runA = .next u ∧ u.response = some r ∧ r.status ≠ .ok) ∧
    ∃ u r, exec (.init cfgB) { State.reset with oracle := ⟨true, true, false, true⟩ } = .next u ∧
      u.response = some r ∧ r.status ≠ .ok :=
  ⟨⟨_, _, rfl, rfl, by decide⟩, ⟨_, _, rfl, rfl, by decide⟩⟩

theorem reset_invariants : State.reset.Invariants where
  brightBounded := by intro c; cases c <;> decide
  oneEffect := .inl rfl
  unassignedZero := by intro c; cases c <;> decide
  softTimersLive := by intro c; cases c <;> decide
  quietUnlessRunning := fun _ =>
    ⟨by rintro (c | k); (cases c <;> rfl); (cases k <;> rfl), rfl⟩
  pulseHasTarget := fun h => absurd h (by decide)

theorem test_witness_AdmissionByLifecycle :
    (Instr.update.isEvent = false ∧ admits State.reset.lifecycle .update = false) ∧
    (admits runA.lifecycle (.setb 3 1) = true ∧
      ∃ u r, exec (.setb 3 1) runA = .next u ∧ u.response = some r) ∧
    State.reset.Invariants ∧ State.reset.lifecycle ≠ .running :=
  ⟨by decide, ⟨by decide, _, _, rfl, rfl⟩, reset_invariants, by decide⟩

theorem test_witness_ErrorsInOrder :
    runB.lifecycle = .running ∧ 4 ≤ (4 : BitVec 4).toNat ∧
    (∀ c, Channel.ofField 3 = some c → runB.kind.get c = .unassigned) ∧
    (∀ c, Channel.ofField 4 = some c → runB.kind.get c = .unassigned) ∧
    (runB.kind.get .red ≠ .unassigned ∧ runB.maxbOf .red < 256) ∧
    State.reset.lifecycle ≠ .running ∧ validConfig [] = false := by
  refine ⟨by decide, by decide, ?_, ?_, by decide, by decide, by decide⟩
  · intro c h
    cases c <;> first | rfl | exact absurd h (by decide)
  · intro c h
    exact absurd h (by cases c <;> decide)

/-- The greatest values; LTH = PERIOD; and b at MAXB with and without a table. -/
theorem test_witness_DutyStaysInBounds :
    ((1 : Word) ≤ 4294967295 ∧ (4294967295 : Word) ≠ 0 ∧ (4294967295 : Word) ≤ 4294967295) ∧
    ((9 : Word) ≤ 9 ∧ (1 : Word) ≠ 0 ∧ (0 : Word) ≤ 1) ∧
    runB.kind.get .red = .hardwarePWM ∧ rawOf .red 255 runB = some 255 ∧
    rawOf .red 3 (hard 1000 3 (some [0, 0, 1, 3])) = some 3 := by decide

/-- V-CU-2 to V-CU-10: P = 7 650 000, where the strict property holds, and P = M = 255, where it fails. -/
theorem test_witness_DutyAtTheEnds :
    ((7650000 : Word) ≠ 0 ∧ (255 : Word) ≠ 0 ∧ (1 : Word) ≠ 0 ∧ (1 : Word) < 255) ∧
    2 ≤ (255 : Word).toNat ∧ (255 : Word).toNat ≤ (7650000 : Word).toNat - (7650000 / 255 : Word).toNat ∧
    ¬ (255 : Word).toNat ≤ (255 : Word).toNat - (255 / 255 : Word).toNat := by decide

/-- Red is HardwarePWM and White SoftwarePWM; brightness at MAXB and 0, with and without a table.  Which of the
two HardwarePWM clauses applies is the hook's, a free value, except that with MAXB 0 it is the first. -/
theorem test_witness_SetbSetsAndUpdates :
    (runA.lifecycle = .running ∧ runA.kind.get .red = .hardwarePWM ∧ 255 ≤ runA.maxbOf .red ∧
      runA.TablesCover) ∧
    (runA.kind.get .white = .softwarePWM ∧ 0 ≤ runA.maxbOf .white) ∧
    ((hard 7650000 10 (some [0, 1, 1, 2, 3, 4, 5, 6, 8, 9, 10])).TablesCover ∧
      10 ≤ (hard 7650000 10 (some [0, 1, 1, 2, 3, 4, 5, 6, 8, 9, 10])).maxbOf .red) ∧
    ((hard 1 0 none).kind.get .red = .hardwarePWM ∧ 0 ≤ (hard 1 0 none).maxbOf .red ∧
      clampTo ((hard 1 0 none).maxbOf .red) (Config.notify .red 0) = 0) := by
  refine ⟨⟨by decide, by decide, by decide, runA_covers⟩, by decide, ⟨table_covers, by decide⟩, by decide,
    by decide, ?_⟩
  exact BitVec.le_zero_iff.mp (clampTo_le 0 _)

theorem test_witness_UpdateRefreshesAll :
    State.reset.lifecycle ≠ .running ∧ runA.lifecycle = .running ∧ runA.TablesCover :=
  ⟨by decide, by decide, runA_covers⟩

theorem test_witness_ShutdownTurnsOff :
    State.reset.lifecycle ≠ .running ∧ runA.lifecycle = .running ∧ runB.kind.get .white = .unassigned ∧
    runA.kind.get .red = .hardwarePWM ∧ runA.kind.get .white = .softwarePWM := by decide

theorem test_witness_RdbReads :
    runB.kind.get .white = .unassigned ∧ (runA.lifecycle = .running ∧ ∃ u, exec .shutdown runA = .next u) ∧
    4 ≤ (4 : BitVec 4).toNat ∧ 4 ≤ (15 : BitVec 4).toNat :=
  ⟨by decide, ⟨by decide, _, rfl⟩, by decide, by decide⟩

theorem test_witness_RdfxReads :
    runH.Invariants ∧ (runH.activeMask.setWidth 32).getLsbD Effect.heartbeat.number = true :=
  ⟨runH_invariants, by decide⟩

/-- Pulse of the last channel of CFG-A, and an effect that takes no channel. -/
theorem test_witness_ActFromIdle :
    runA.lifecycle = .running ∧ runA.activeMask = 0 ∧
    (Effect.pulse = .pulse → ∃ c, Channel.ofField 3 = some c ∧ runA.kind.get c ≠ .unassigned) ∧
    (Effect.rainbow = .pulse → ∃ c, Channel.ofField 15 = some c ∧ runA.kind.get c ≠ .unassigned) :=
  ⟨by decide, by decide, fun _ => ⟨.white, by decide⟩, nofun⟩

theorem test_witness_ActReplacesActive :
    runH.lifecycle = .running ∧ runH.activeMask = 1 <<< Effect.heartbeat.number ∧ runH.TablesCover ∧
    (Effect.pulse = .pulse → ∃ c, Channel.ofField 0 = some c ∧ runH.kind.get c ≠ .unassigned) ∧
    (Effect.heartbeat = .pulse → ∃ c, Channel.ofField 0 = some c ∧ runH.kind.get c ≠ .unassigned) :=
  ⟨by decide, by decide, covers_without_tables (by decide), fun _ => ⟨.red, by decide⟩,
    nofun⟩

theorem test_witness_DeactRestores :
    runH.lifecycle = .running ∧ maskHas runH.activeMask .heartbeat = true ∧ runH.TablesCover :=
  ⟨by decide, by decide, covers_without_tables (by decide)⟩

theorem test_witness_DeactOfInactive :
    runH.lifecycle = .running ∧ maskHas runH.activeMask .blink = false := by decide

theorem test_witness_InactiveTickCancelsItself : maskHas runH.activeMask .pulse = false := by decide

/-- At the first and the last entry of the table. -/
theorem test_witness_PulseTick (step : Word) (h : step = 0 ∨ step = 74) :
    let s := runFx .pulse step (Bank.all 0)
    maskHas s.activeMask .pulse = true ∧ s.pulseCh = some .white ∧ s.kind.get .white ≠ .unassigned ∧
      s.fxStep.toNat ≤ 74 ∧ s.TablesCover := by
  obtain rfl | rfl := h
  · exact ⟨by decide, by decide, by decide, by decide, runFx_covers _ _ _⟩
  · exact ⟨by decide, by decide, by decide, by decide, runFx_covers _ _ _⟩

theorem test_witness_BlinkTick (step : Word) (h : step = 0 ∨ step = 1) :
    let s := runFx .blink step (colour 5 6 7 8)
    maskHas s.activeMask .blink = true ∧ s.fxStep.toNat ≤ 1 ∧ s.TablesCover := by
  obtain rfl | rfl := h
  · exact ⟨by decide, by decide, runFx_covers _ _ _⟩
  · exact ⟨by decide, by decide, runFx_covers _ _ _⟩

theorem test_witness_HeartbeatTick (step : Word) (h : step = 2 ∨ step = 3) :
    let s := runFx .heartbeat step (colour 200 0 0 0)
    maskHas s.activeMask .heartbeat = true ∧ s.fxStep.toNat ≤ 3 ∧ s.TablesCover := by
  obtain rfl | rfl := h
  · exact ⟨by decide, by decide, runFx_covers _ _ _⟩
  · exact ⟨by decide, by decide, runFx_covers _ _ _⟩

/-- Phase 0 at STEP 254, where the phase ends, and phase 5 at STEP 253, where it goes on. -/
theorem test_witness_RainbowTick :
    let s := runFx .rainbow 254 (Bank.all 0)
    let u := { runFx .rainbow 253 (Bank.all 0) with phase := 5 }
    (maskHas s.activeMask .rainbow = true ∧ s.phase = 0 ∧ s.TablesCover ∧
      (s.maxbOf .green).toNat ≤ s.fxStep.toNat + 1) ∧
    (maskHas u.activeMask .rainbow = true ∧ u.phase = 5 ∧ u.TablesCover ∧
      u.fxStep.toNat + 1 < (u.maxbOf .blue).toNat) :=
  ⟨⟨by decide, by decide, runFx_covers _ _ _, by decide⟩,
    ⟨by decide, by decide, covers_without_tables (by decide), by decide⟩⟩

theorem test_witness_RoundTripLaw :
    let is := [Instr.tickHeartbeat, .fire 3, .setb 0 7]
    (runA.lifecycle = .running ∧ runA.activeMask = 0 ∧
      (Effect.pulse = .pulse → ∃ c, Channel.ofField 3 = some c ∧ runA.kind.get c ≠ .unassigned)) ∧
    (runH.lifecycle = .running ∧ runH.activeMask = 1 <<< Effect.heartbeat.number ∧ runH.TablesCover) ∧
    ∀ i ∈ is, (∃ l, i = tickOf l) ∨ (∃ c, i = .fire c) ∨ ∃ c v, i = .setb c v := by
  refine ⟨⟨by decide, by decide, fun _ => ⟨.white, by decide⟩⟩,
    ⟨by decide, by decide, covers_without_tables (by decide)⟩, ?_⟩
  intro i hi
  simp only [List.mem_cons, List.not_mem_nil, or_false] at hi
  obtain rfl | rfl | rfl := hi
  · exact .inl ⟨.heartbeat, rfl⟩
  · exact .inr (.inl ⟨_, rfl⟩)
  · exact .inr (.inr ⟨_, _, rfl⟩)

theorem test_witness_RainbowCycle :
    let s := runFx .rainbow 0 (Bank.all 0)
    maskHas s.activeMask .rainbow = true ∧ s.phase = 0 ∧ s.fxStep = 0 ∧ s.maxbOf .red ≠ 0 ∧
      s.maxbOf .green ≠ 0 ∧ s.maxbOf .blue ≠ 0 ∧ s.TablesCover :=
  ⟨by decide, by decide, by decide, by decide, by decide, by decide, runFx_covers _ _ _⟩

theorem test_witness_PulseWaveform :
    let s := runFx .pulse 0 (Bank.all 0)
    maskHas s.activeMask .pulse = true ∧ s.pulseCh = some .white ∧ s.kind.get .white ≠ .unassigned ∧
      s.fxStep = 0 ∧ s.TablesCover :=
  ⟨by decide, by decide, by decide, by decide, runFx_covers _ _ _⟩

theorem test_witness_InertTickAfterDeact :
    runH.lifecycle = .running ∧ maskHas runH.activeMask .heartbeat = true ∧ runH.TablesCover :=
  test_witness_DeactRestores

/-- The inert Heartbeat timer of program PR2, due, with its event next. -/
def inert : State := { runH with activeMask := 0, agenda := [.event 0x81020000] }

/-- The state after that event: Heartbeat's timer is disarmed and nothing is proposed. -/
def served : State := nextOf (step inert)

/-- The run that serves it and then waits for ever. -/
def inertRun : Nat → State
  | 0 => inert
  | _ + 1 => served

theorem served_never_due (id : TimerId) : served.due id = false := by
  rcases id with c | k
  · cases c <;> decide
  · cases k <;> decide

theorem test_witness_InertTimerIsServed :
    IsRun inertRun ∧ WeaklyFair inertRun ∧ (inertRun 0).due (.effect .heartbeat) = true ∧
      ∀ m, 0 ≤ m → maskHas (inertRun m).activeMask .heartbeat = false := by
  refine ⟨?_, ?_, by decide, ?_⟩
  · rintro (_ | n) <;> rfl
  · intro n id h
    exact absurd (h (n + 1) (Nat.le_succ n)) (by simp [inertRun, served_never_due])
  · rintro (_ | m) -
    · decide
    · exact (by decide : maskHas served.activeMask .heartbeat = false)

theorem test_witness_EffectExclusivity :
    runA.OneEffect ∧ ∃ u, exec (.act 3 0) runA = .next u ∧ u.activeMask ≠ runA.activeMask :=
  ⟨.inl (by decide), _, rfl, by decide⟩

/-- White at MAXB, at 0, and toggling from Low and from High; with LTH 0 and with a pulse longer than the
period, the two ways to an interval that is not positive. -/
theorem test_witness_FireFollowsItsRule :
    let full := soft 7650000 255 30000 255 .low 0
    let off := soft 7650000 255 30000 0 .low 0
    let up := soft 7650000 255 30000 1 .low 0
    let down := soft 7650000 255 30000 254 .high 0
    let short := soft 7650000 255 0 1 .low 0
    let long := soft 100 255 100 1 .high 0
    (full.kind.get .white = .softwarePWM ∧ full.maxbOf .white ≤ full.brightOf .white) ∧
    (off.brightOf .white < off.maxbOf .white ∧ off.brightOf .white = 0) ∧
    (up.brightOf .white < up.maxbOf .white ∧ up.brightOf .white ≠ 0 ∧ up.swLevel.get .white = .low ∧
      (up.brightOf .white).toNat * (up.lthOf .white).toNat ≠ 0) ∧
    (down.brightOf .white < down.maxbOf .white ∧ down.swLevel.get .white = .high ∧
      (down.brightOf .white).toNat * (down.lthOf .white).toNat < down.periodNs.toNat) ∧
    (short.swLevel.get .white = .low ∧ (short.brightOf .white).toNat * (short.lthOf .white).toNat = 0) ∧
    (long.swLevel.get .white = .high ∧
      long.periodNs.toNat ≤ (long.brightOf .white).toNat * (long.lthOf .white).toNat) := by decide

theorem test_witness_FireOfNoSoftChannelFaults :
    (∀ c, Channel.ofField 4 = some c → runA.kind.get c ≠ .softwarePWM) ∧
    (∀ c, Channel.ofField 0 = some c → runA.kind.get c ≠ .softwarePWM) ∧
    ∀ c, Channel.ofField 3 = some c → runB.kind.get c ≠ .softwarePWM := by
  refine ⟨?_, ?_, ?_⟩ <;> intro c h <;> cases c <;> first | decide | exact absurd h (by decide)

theorem test_witness_HighPlusLowIsThePeriod :
    let s := soft 1000 7 142 6 .low 0
    s.kind.get .white = .softwarePWM ∧ s.swLevel.get .white = .low ∧ s.brightOf .white ≠ 0 ∧
      s.brightOf .white < s.maxbOf .white ∧ s.lthOf .white = s.periodNs / s.maxbOf .white ∧
      s.lthOf .white ≠ 0 := by decide

theorem test_witness_RunningSoftPwmIsNotDisturbed :
    let s := { runA with swt := runA.swt.set .white (Timer.arm 9000) }
    (∃ u, exec (.setb 3 100) s = .next u) ∧ (s.swt.get .white).armed = true ∧
      Instr.setb 3 100 ≠ .fire Channel.white.field ∧ Instr.setb 3 100 ≠ .shutdown :=
  ⟨⟨_, rfl⟩, by decide, by decide, by decide⟩

/-- V-IN-14: the first HardwarePWM entry is not the first entry; V-IN-15: there is none. -/
theorem test_witness_PeriodSelection :
    (hw .green 255 1000000).kind = .hardwarePWM ∧ (∀ d ∈ [sw .red 255], d.kind = .softwarePWM) ∧
    ∀ d ∈ cfgS, d.kind = .softwarePWM := by decide

theorem test_witness_InitAccepts :
    State.reset.lifecycle ≠ .running ∧ validConfig cfgB = true ∧
    (∀ b ∈ State.reset.oracle.toList.take cfgB.length, b = true) ∧
    (∀ e ∈ cfgB, e.color ≠ .white) ∧ runB.kind.get .red = .hardwarePWM ∧
    runA.kind.get .white = .softwarePWM := by decide

/-- The first handle refused, and the last one. -/
theorem test_witness_InitReleasesOnFailure :
    State.reset.lifecycle ≠ .running ∧ validConfig cfgA = true ∧
    (0 < cfgA.length ∧ (Answers.toList ⟨false, true, true, true⟩)[0]? = some false) ∧
    (3 < cfgA.length ∧ (∀ b ∈ (Answers.toList ⟨true, true, true, false⟩).take 3, b = true) ∧
      (Answers.toList ⟨true, true, true, false⟩)[3]? = some false) := by decide

/-- R119: an INIT refused its second handle after a SHUTDOWN writes no port register. -/
theorem test_refused_init_keeps_ports :
    let s := nextOf (exec .shutdown runA)
    let t := nextOf (exec (.init cfgA) { s with oracle := ⟨true, false, true, true⟩ })
    status t = some .resourceUnavailable ∧ (t.generator.get .red).enabled = some false ∧
      t.pin.get .white = some .low := by decide

theorem test_witness_ConfigurationWrittenOnlyByInit :
    (∃ u, exec .shutdown runA = .next u) ∧ ∀ cfg, Instr.shutdown ≠ .init cfg :=
  ⟨⟨_, rfl⟩, nofun⟩

/-- A command while running, and an INIT that configures the block. -/
theorem test_witness_EventsAreAppended :
    (∃ u, exec (.fire 3) runA = .next u ∧ runA.lifecycle = .running ∧ u.log ≠ runA.log) ∧
    ∃ u, exec (.init cfgA) State.reset = .next u ∧ State.reset.lifecycle ≠ .running ∧
      u.lifecycle = .running :=
  ⟨⟨_, rfl, by decide, by decide⟩, ⟨_, rfl, by decide, by decide⟩⟩

/-- White of CFG-B: a SHUTDOWN that emits for the others, and the INIT that leaves it Unassigned. -/
theorem test_witness_UnassignedChannelIsSilent :
    (runB.kind.get .white = .unassigned ∧ (∀ cfg, Instr.shutdown ≠ .init cfg) ∧
      ∃ u, exec .shutdown runB = .next u ∧
        u.log = runB.log ++ runB.stamped (offWrites runB.kind ++ releases runB.kind)) ∧
    ∃ u, exec (.init cfgB) State.reset = .next u ∧ u.response = some { status := .ok, result := 0 } ∧
      u.kind.get .white = .unassigned :=
  ⟨⟨by decide, nofun, _, rfl, by decide⟩, ⟨_, rfl, by decide, by decide⟩⟩

/-- Every case of 60_exceptions.md R127: a due timer, also before a command of the current instant; the
effect timer before the soft-PWM timer of the same deadline; the command; the next command's time; the next
deadline before it; and nothing left. -/
theorem test_witness_ReferenceMoveIsAdmitted :
    referenceMove runA.oracle (some 300000000) runH = some (.event 0x81020000) ∧
    referenceMove runA.oracle none ((runS.armSwt .white 0).armFxt .rainbow 0) = some (.event 0x81030000) ∧
    referenceMove runA.oracle (some 0) runA = some (.host runA.oracle) ∧
    referenceMove runA.oracle (some 1) runA = some (.advance 1) ∧
    referenceMove runA.oracle (some 5) (runS.armSwt .white 3) = some (.advance 3) ∧
    referenceMove runA.oracle none runA = none := by decide

end Sys2Proof.Tests
end

section
/-! The invariants I1 to I6 of 10_state.md rule R42: what each shared operation must meet to keep them, then
every move of an instruction, then every step. -/

namespace Sys2Proof.Machine

/-! ## The operations -/

/-- I1 to I6 speak of nothing a response or a fault record writes. -/
theorem Answered.invariants {u t : State} (ha : Answered u t) (h : u.Invariants) : t.Invariants := by
  rw [ha.same]
  exact { h with }

/-- New brightness within MAXB: an Unassigned channel's MAXB is 0, so its brightness stays 0. -/
theorem State.Invariants.withBright {s : State} (h : s.Invariants) {b : Bank Word}
    (hb : ∀ c, b.get c ≤ s.maxb.get c) : ({ s with bright := b } : State).Invariants :=
  { h with
    brightBounded := fun c => ⟨hb c, (h.brightBounded c).2⟩
    unassignedZero := fun c hk => by
      obtain ⟨hm, -, hl, ha⟩ := h.unassignedZero c hk
      have hz : b.get c ≤ 0 := hm ▸ hb c
      exact ⟨hm, BitVec.le_zero_iff.mp hz, hl, ha⟩ }

/-- New soft-PWM timers, armed only for SoftwarePWM channels of a running block. -/
theorem State.Invariants.withSwt {s : State} (h : s.Invariants) {b : Bank Timer}
    (hb : ∀ c, (b.get c).armed = true → s.kind.get c = .softwarePWM ∧ s.lifecycle = .running) :
    (s.withSwt b).Invariants :=
  { h with
    unassignedZero := fun c hk => by
      obtain ⟨hm, hbr, hl, -⟩ := h.unassignedZero c hk
      have hk : s.kind.get c = .unassigned := hk
      exact ⟨hm, hbr, hl, by simpa [hk] using hb c⟩
    softTimersLive := hb
    quietUnlessRunning := fun hr => by
      obtain ⟨ht, hz⟩ := h.quietUnlessRunning hr
      refine ⟨fun id => ?_, hz⟩
      cases id with
      | soft c => exact Bool.eq_false_iff.mpr fun ha => hr (hb c ha).2
      | effect k => exact ht (.effect k) }

/-- New effect timers, armed only while the block runs. -/
theorem State.Invariants.withFxt {s : State} (h : s.Invariants) {b : FxBank Timer}
    (hb : s.lifecycle ≠ .running → ∀ k, (b.get k).armed = false) :
    ({ s with fxt := b } : State).Invariants :=
  { h with
    quietUnlessRunning := fun hr => by
      obtain ⟨ht, hz⟩ := h.quietUnlessRunning hr
      refine ⟨fun id => ?_, hz⟩
      cases id with
      | soft c => exact ht (.soft c)
      | effect k => exact hb hr k }

/-- A refresh of a running block arms soft-PWM timers of SoftwarePWM channels only. -/
theorem Refreshed.invariants {s t : State} (hr : Refreshed s t) (h : s.Invariants)
    (running : s.lifecycle = .running) : t.Invariants := by
  have hs : (s.withSwt t.swt).Invariants := h.withSwt fun c ha => by
    refine ⟨?_, running⟩
    rcases hr.timers c with e | e
    · exact (h.softTimersLive c (e ▸ ha)).1
    · rw [e, State.softTimerAfter] at ha
      split at ha
      · rename_i hk; exact hk.1
      · exact (h.softTimersLive c ha).1
  rw [hr.same]
  exact { hs with }

theorem word_zero_le (v : Word) : 0 ≤ v := by simp [BitVec.le_def]

theorem hardwired_le_self (k : Kind) (v : Word) : hardwired k v ≤ v := by
  cases k
  case unassigned => exact word_zero_le v
  all_goals exact BitVec.le_refl v

theorem maxbOf_le (s : State) (c : Channel) : s.maxbOf c ≤ s.maxb.get c := hardwired_le_self _ _

/-- Writing one channel's brightness within MAXB leaves every brightness within MAXB. -/
theorem set_hardwired_le {s : State} {b : Bank Word} {c : Channel} {v : Word}
    (hb : ∀ d, b.get d ≤ s.maxb.get d) (hv : v ≤ s.maxbOf c) (d : Channel) :
    (b.set c (hardwired (s.kind.get c) v)).get d ≤ s.maxb.get d := by
  rw [Bank.get_set]
  split
  · rename_i hd
    subst hd
    exact BitVec.le_trans (hardwired_le_self _ v) (BitVec.le_trans hv (maxbOf_le s d))
  · exact hb d

theorem setBright_invariants {s : State} (h : s.Invariants) {c : Channel} {v : Word}
    (hv : v ≤ s.maxbOf c) : (s.setBright c v).Invariants :=
  h.withBright (set_hardwired_le (fun d => (h.brightBounded d).1) hv)

theorem restoreColor_le {s : State} (h : s.Invariants) (c : Channel) :
    s.restoreColor.bright.get c ≤ s.maxb.get c := by
  rw [State.restoreColor_bright, Bank.get_ofFn]
  exact BitVec.le_trans (hardwired_le_self _ _) (h.brightBounded c).2

theorem darken_le (s : State) (c : Channel) : s.darken.bright.get c ≤ s.maxb.get c := by
  rw [State.darken_bright, Bank.get_ofFn]
  exact BitVec.le_trans (hardwired_le_self _ _) (word_zero_le _)

/-! ## Effects -/

theorem maskHas_of_zero {m : BitVec 4} (h : m = 0) (k : Effect) : maskHas m k = false := by
  subst h
  exact maskHas_zero k

theorem maskHas_of_effectBit {m : BitVec 4} {k : Effect} (h : m = effectBit k) : maskHas m k = true := by
  rw [h, maskHas_effectBit, decide_eq_true rfl]

/-- Under I2 the bit of an active effect is the whole of ACTIVE_MASK. -/
theorem State.OneEffect.eq_effectBit {s : State} (h : s.OneEffect) {k : Effect}
    (hk : maskHas s.activeMask k = true) : s.activeMask = effectBit k := by
  rcases h with h | ⟨a, ha⟩
  · rw [maskHas_of_zero h] at hk
    cases hk
  · rw [ha, maskHas_effectBit, decide_eq_true_eq] at hk
    rw [ha, hk]

/-- Under I5 an active effect means that the block runs. -/
theorem State.Invariants.running_of_active {s : State} (h : s.Invariants) {k : Effect}
    (hk : maskHas s.activeMask k = true) : s.lifecycle = .running := by
  by_contra hr
  rw [maskHas_of_zero (h.quietUnlessRunning hr).2] at hk
  cases hk

/-- Under I2 clearing the bit of an active effect leaves none. -/
theorem State.OneEffect.maskClear_active {s : State} (h : s.OneEffect) {k : Effect}
    (hk : maskHas s.activeMask k = true) : maskClear s.activeMask k = 0 := by
  rw [h.eq_effectBit hk]
  exact maskClear_effectBit k

theorem restoredFrom_invariants {s : State} (h : s.Invariants) {k : Effect}
    (hk : maskHas s.activeMask k = true) : (restoredFrom k s).Invariants := by
  have hz := h.oneEffect.maskClear_active hk
  have hc : ({ s with activeMask := maskClear s.activeMask k } : State).Invariants :=
    { h with
      oneEffect := .inl hz
      quietUnlessRunning := fun hr => ⟨(h.quietUnlessRunning hr).1, hz⟩
      pulseHasTarget := fun hp => by
        have hn := maskHas_of_zero hz .pulse
        exact absurd hp (by simp [hn]) }
  exact hc.withBright (restoreColor_le hc)

/-- ACT gives Pulse an assigned target. -/
theorem actTarget_pulse {ch : BitVec 4} {s : State} {target : Option Channel}
    (h : actTarget .pulse ch s = some target) :
    ∃ c, target = some c ∧ s.kind.get c ≠ .unassigned := by
  simp only [actTarget] at h
  split at h
  · cases h
  · rename_i c _
    split at h
    · cases h
    · rename_i hc
      exact ⟨c, (Option.some.inj h).symm, hc⟩

theorem activate_invariants {s : State} (h : s.Invariants) (running : s.lifecycle = .running) {k : Effect}
    {target : Option Channel}
    (aim : k = .pulse → ∃ c, target = some c ∧ s.kind.get c ≠ .unassigned) :
    (activate k target s).Invariants :=
  { h with
    brightBounded := fun c => by
      obtain ⟨hb, -⟩ := h.brightBounded c
      refine ⟨hb, ?_⟩
      have hs : (activate k target s).savedColor.get c = s.brightOf c := Bank.get_ofFn _ c
      rw [hs]
      exact BitVec.le_trans (hardwired_le_self _ _) hb
    oneEffect := .inr ⟨k, rfl⟩
    quietUnlessRunning := fun hr => absurd running hr
    pulseHasTarget := fun hp => by
      have hp : maskHas (effectBit k) .pulse = true := hp
      rw [maskHas_effectBit, decide_eq_true_eq] at hp
      exact aim hp }

/-- Rainbow's moving channel stays within its maximum (42_effects.md rule R100). -/
theorem wheelValue_le (up : Bool) (m j : Word) : wheelValue up m j ≤ m := by
  have hc := clampTo_le m j
  unfold wheelValue
  split
  · exact hc
  · rw [BitVec.le_def, BitVec.toNat_sub_of_le hc]
    omega

/-- Every tick's body writes brightness within MAXB. -/
theorem BodyMoves.bright_le {k : Effect} {s t : State} (hb : BodyMoves k s t) (h : s.Invariants)
    (c : Channel) : t.bright.get c ≤ s.maxb.get c := by
  have h0 : ∀ d, s.bright.get d ≤ s.maxb.get d := fun d => (h.brightBounded d).1
  cases hb with
  | pulse => exact set_hardwired_le h0 (clampTo_le _ _) c
  | blink =>
    split
    · exact darken_le s c
    · exact restoreColor_le h c
  | heartbeat =>
    split
    · exact darken_le s c
    · exact restoreColor_le h c
  | rainbow hr =>
    have h1 := set_hardwired_le h0 (wheelValue_le (wheelUp s.phase) (s.maxbOf (wheelMoving s.phase)) s.fxStep)
    have h2 := set_hardwired_le h1 (BitVec.le_refl (s.maxbOf (wheelHigh s.phase)))
    have h3 := set_hardwired_le h2 (c := wheelLow s.phase) (word_zero_le _) c
    simp only [rainbowBody] at hr
    cases hr
    split <;> exact h3

theorem BodyMoves.invariants {k : Effect} {s t : State} (hb : BodyMoves k s t) (h : s.Invariants) :
    t.Invariants := by
  have hw := h.withBright (hb.bright_le h)
  rw [hb.same]
  exact { hw with }

theorem disarmFxt_invariants {s : State} (h : s.Invariants) (k : Effect) : (s.disarmFxt k).Invariants :=
  h.withFxt fun hr l => by
    rw [FxBank.get_set]
    split
    · rfl
    · exact (h.quietUnlessRunning hr).1 (.effect l)

theorem armFxt_invariants {s : State} (h : s.Invariants) (running : s.lifecycle = .running) (k : Effect)
    (d : Time) : (s.armFxt k d).Invariants :=
  h.withFxt fun hr => absurd running hr

/-! ## The soft-PWM scheduler -/

theorem disarmSwt_invariants {s : State} (h : s.Invariants) (c : Channel) : (s.disarmSwt c).Invariants :=
  h.withSwt fun d ha => by
    rw [Bank.get_set] at ha
    split at ha
    · cases ha
    · exact h.softTimersLive d ha

theorem armSwt_invariants {s : State} (h : s.Invariants) {c : Channel} (soft : s.kind.get c = .softwarePWM)
    (running : s.lifecycle = .running) (d : Time) : (s.armSwt c d).Invariants :=
  h.withSwt fun e ha => by
    rw [Bank.get_set] at ha
    split at ha
    · rename_i he
      exact ⟨he ▸ soft, running⟩
    · exact h.softTimersLive e ha

/-! ## SHUTDOWN and INIT -/

theorem turnedOff_timer (s : State) (id : TimerId) : ((turnedOff s).timer id).armed = false := by
  cases id <;> simp [State.timer]

theorem shutdown_invariants {s : State} (h : s.Invariants) :
    ({ turnedOff s with lifecycle := .shutdown } : State).Invariants where
  brightBounded c := ⟨by simpa using word_zero_le _, by simpa using (h.brightBounded c).2⟩
  oneEffect := .inl (turnedOff_activeMask s)
  unassignedZero c hk := by
    obtain ⟨hm, -, hl, -⟩ := h.unassignedZero c (by simpa using hk)
    simp [hm, hl]
  softTimersLive c ha := absurd ha (by simp)
  quietUnlessRunning _ := ⟨turnedOff_timer s, turnedOff_activeMask s⟩
  pulseHasTarget hp := absurd hp (by simp)

/-- INIT leaves a channel Unassigned exactly when the record has no entry for it. -/
theorem commitConfig_unassigned_iff (cfg : ConfigRecord) (s : State) (c : Channel) :
    (commitConfig cfg s).kind.get c = .unassigned ↔ entryFor cfg c = none := by
  simp only [commitConfig, Bank.get_ofFn]
  cases entryFor cfg c with
  | none => simp
  | some e => cases hk : e.kind <;> simp [kindOfEntry, hk]

theorem init_invariants (cfg : ConfigRecord) (s : State) :
    ({ initialised cfg s with lifecycle := .running } : State).Invariants where
  brightBounded c := by simpa [commitConfig] using word_zero_le _
  oneEffect := .inl (by simp [commitConfig])
  unassignedZero c hk := by
    rw [initialised_kind, commitConfig_unassigned_iff] at hk
    simp [commitConfig, hk]
  softTimersLive c ha := absurd ha (by simp [commitConfig])
  quietUnlessRunning hr := absurd rfl hr
  pulseHasTarget hp := absurd hp (by simp [commitConfig])

/-- Acquisition writes the log only (60_exceptions.md rule R119). -/
theorem acquire_log_only {es : List (Entry × Bool)} {got : List Channel} {s u : State} {ok : Bool}
    (h : acquire es got s = (ok, u)) :
    ∃ evs : List (Channel × PortEvent), (∀ ce ∈ evs, ce.2 = .acquire ∨ ce.2 = .release) ∧
      u = { s with log := s.log ++ s.stamped evs } := by
  obtain ⟨evs, he, hh⟩ := acquire_emits es got s
  rw [h, emitAll_handles evs hh] at he
  exact ⟨evs, hh, he⟩

/-! ## Every instruction, every step -/

/-- The instruction is a host command or the event of an armed timer, as in every step
(30_encoding.md rule R67). -/
def Triggered (i : Instr) (s : State) : Prop :=
  i.isEvent = true → ∃ id, eventTimer i = some id ∧ (s.timer id).armed = true

theorem Triggered.fire {ch : BitVec 4} {s : State} (h : Triggered (.fire ch) s) :
    ∃ c, Channel.ofField ch = some c ∧ (s.swt.get c).armed = true := by
  obtain ⟨id, hid, ha⟩ := h rfl
  obtain ⟨c, hc, rfl⟩ := Option.map_eq_some_iff.mp hid
  exact ⟨c, hc, ha⟩

/-- Every move keeps I1 to I6. -/
theorem Moves.invariants {i : Instr} {s u : State} (m : Moves i s u) (h : s.Invariants)
    (trigger : Triggered i s) : u.Invariants := by
  cases m with
  | keep => exact h
  | setb running _ _ bound refresh => exact refresh.invariants (setBright_invariants h bound) running
  | update running refresh => exact refresh.invariants h running
  | act running _ aim _ =>
    exact activate_invariants h running fun hk => actTarget_pulse (hk ▸ aim)
  | actReplace running _ aim active refresh =>
    have hr := refresh.invariants (restoredFrom_invariants h (maskHas_of_effectBit active)) running
    refine activate_invariants hr (refresh.lifecycle.trans running) fun hk => ?_
    rw [refresh.kind]
    exact actTarget_pulse (hk ▸ aim)
  | actStop running active refresh =>
    exact refresh.invariants (restoredFrom_invariants h (maskHas_of_effectBit active)) running
  | deact running _ active refresh =>
    exact refresh.invariants (restoredFrom_invariants h active) running
  | shutdown => exact shutdown_invariants h
  | initFailed _ _ handles =>
    obtain ⟨_, _, rfl⟩ := acquire_log_only handles
    exact { h with }
  | init => exact init_invariants _ _
  | fireSteady => exact { disarmSwt_invariants h _ with }
  | @fireToggle ch c l d s channel soft level =>
    obtain ⟨e, he, ha⟩ := trigger.fire
    obtain ⟨-, running⟩ := h.softTimersLive e ha
    exact { armSwt_invariants (disarmSwt_invariants h c) soft running (s.deadlineIn d) with }
  | fireStop => exact { disarmSwt_invariants h _ with }
  | tickQuiet => exact disarmFxt_invariants h _
  | tick _ active body refresh =>
    have running := h.running_of_active active
    have hb := body.invariants (disarmFxt_invariants h _)
    have hl := (congrArg State.lifecycle body.same).trans running
    exact armFxt_invariants (refresh.invariants hb hl) (refresh.lifecycle.trans hl) _ _
  | tickStop _ active body refresh =>
    have running := h.running_of_active active
    have hb := body.invariants (disarmFxt_invariants h _)
    exact refresh.invariants hb ((congrArg State.lifecycle body.same).trans running)

theorem exec_invariants {i : Instr} {s t : State} (hx : exec i s = .next t) (h : s.Invariants)
    (trigger : Triggered i s) : t.Invariants := by
  obtain ⟨u, m, a⟩ := exec_moves hx
  exact a.invariants (m.invariants h trigger)

end Sys2Proof.Machine
end

section
/-! What every move keeps of the configuration, the time and LIFECYCLE, and the induction step over the ways a
step can answer. -/

namespace Sys2Proof.Machine

/-- `t` has the configuration registers of `s`. -/
structure SameConfig (s t : State) : Prop where
  kind     : t.kind = s.kind
  maxb     : t.maxb = s.maxb
  lth      : t.lth = s.lth
  levels   : t.levels = s.levels
  periodNs : t.periodNs = s.periodNs

/-- `t` has the configuration registers, the time and the LIFECYCLE of `s`. -/
structure Framed (s t : State) : Prop extends SameConfig s t where
  nowNs     : t.nowNs = s.nowNs
  lifecycle : t.lifecycle = s.lifecycle

theorem SameConfig.trans {s t u : State} (h : SameConfig s t) (g : SameConfig t u) : SameConfig s u :=
  ⟨g.kind.trans h.kind, g.maxb.trans h.maxb, g.lth.trans h.lth, g.levels.trans h.levels,
    g.periodNs.trans h.periodNs⟩

theorem Framed.trans {s t u : State} (h : Framed s t) (g : Framed t u) : Framed s u :=
  ⟨h.toSameConfig.trans g.toSameConfig, g.nowNs.trans h.nowNs, g.lifecycle.trans h.lifecycle⟩

theorem Answered.framed {s t : State} (h : Answered s t) : Framed s t :=
  ⟨⟨h.kind, h.maxb, h.lth, h.levels, h.periodNs⟩, h.nowNs, h.lifecycle⟩

theorem Refreshed.framed {s t : State} (h : Refreshed s t) : Framed s t :=
  ⟨⟨h.kind, h.maxb, h.lth, h.levels, h.periodNs⟩, h.nowNs, h.lifecycle⟩

theorem BodyMoves.framed {k : Effect} {s t : State} (h : BodyMoves k s t) : Framed s t := by
  rw [h.same]
  exact ⟨⟨rfl, rfl, rfl, rfl, rfl⟩, rfl, rfl⟩

theorem setBright_framed (c : Channel) (v : Word) (s : State) : Framed s (s.setBright c v) :=
  ⟨⟨rfl, rfl, rfl, rfl, rfl⟩, rfl, rfl⟩

theorem restoredFrom_framed (k : Effect) (s : State) : Framed s (restoredFrom k s) :=
  ⟨⟨rfl, rfl, rfl, rfl, rfl⟩, rfl, rfl⟩

theorem activate_framed (k : Effect) (target : Option Channel) (s : State) :
    Framed s (activate k target s) := ⟨⟨rfl, rfl, rfl, rfl, rfl⟩, rfl, rfl⟩

theorem disarmFxt_framed (k : Effect) (s : State) : Framed s (s.disarmFxt k) :=
  ⟨⟨rfl, rfl, rfl, rfl, rfl⟩, rfl, rfl⟩

theorem armFxt_framed (k : Effect) (d : Time) (s : State) : Framed s (s.armFxt k d) :=
  ⟨⟨rfl, rfl, rfl, rfl, rfl⟩, rfl, rfl⟩

/-- Every instruction but SHUTDOWN and a successful INIT keeps the configuration, the time and LIFECYCLE. -/
theorem Moves.framed_or {i : Instr} {s u : State} (m : Moves i s u) :
    Framed s u ∨
    (i = .shutdown ∧ s.lifecycle = .running ∧ u = { turnedOff s with lifecycle := .shutdown }) ∨
    ∃ cfg v, i = .init cfg ∧ s.lifecycle ≠ .running ∧ validConfig cfg = true ∧
      acquire (cfg.zip s.oracle.toList) [] s = (true, v) ∧
      u = { initialised cfg v with lifecycle := .running } := by
  cases m with
  | shutdown running => exact .inr (.inl ⟨rfl, running, rfl⟩)
  | init idle valid handles => exact .inr (.inr ⟨_, _, rfl, idle, valid, handles, rfl⟩)
  | initFailed _ _ handles =>
    obtain ⟨_, _, rfl⟩ := acquire_log_only handles
    exact .inl ⟨⟨rfl, rfl, rfl, rfl, rfl⟩, rfl, rfl⟩
  | setb _ _ _ _ refresh => exact .inl ((setBright_framed _ _ s).trans refresh.framed)
  | update _ refresh => exact .inl refresh.framed
  | actReplace _ _ _ _ refresh =>
    exact .inl (((restoredFrom_framed _ s).trans refresh.framed).trans (activate_framed _ _ _))
  | actStop _ _ refresh => exact .inl ((restoredFrom_framed _ s).trans refresh.framed)
  | deact _ _ _ refresh => exact .inl ((restoredFrom_framed _ s).trans refresh.framed)
  | tick _ _ body refresh =>
    exact .inl ((((disarmFxt_framed _ s).trans body.framed).trans refresh.framed).trans
      (armFxt_framed _ _ _))
  | tickStop _ _ body refresh =>
    exact .inl (((disarmFxt_framed _ s).trans body.framed).trans refresh.framed)
  | keep | act | fireSteady | fireToggle | fireStop | tickQuiet =>
    exact .inl ⟨⟨rfl, rfl, rfl, rfl, rfl⟩, rfl, rfl⟩

theorem shutdown_sameConfig (s : State) : SameConfig s { turnedOff s with lifecycle := .shutdown } :=
  ⟨turnedOff_kind s, turnedOff_maxb s, turnedOff_lth s, turnedOff_levels s, turnedOff_periodNs s⟩

/-- No instruction but INIT writes the configuration. -/
theorem Moves.sameConfig {i : Instr} {s u : State} (m : Moves i s u) (hi : ∀ cfg, i ≠ .init cfg) :
    SameConfig s u := by
  rcases m.framed_or with hf | ⟨-, -, rfl⟩ | ⟨cfg, _, rfl, -⟩
  · exact hf.toSameConfig
  · exact shutdown_sameConfig s
  · exact absurd rfl (hi cfg)

/-- Instructions take no time (60_exceptions.md rule R131). -/
theorem Moves.nowNs {i : Instr} {s u : State} (m : Moves i s u) : u.nowNs = s.nowNs := by
  rcases m.framed_or with hf | ⟨-, -, rfl⟩ | ⟨cfg, v, -, -, -, handles, rfl⟩
  · exact hf.nowNs
  · exact turnedOff_nowNs s
  · obtain ⟨_, _, rfl⟩ := acquire_log_only handles
    exact initialised_nowNs cfg _

theorem exec_nowNs {i : Instr} {s t : State} (hx : exec i s = .next t) : t.nowNs = s.nowNs := by
  obtain ⟨u, m, a⟩ := exec_moves hx
  exact a.nowNs.trans m.nowNs

theorem exec_sameConfig {i : Instr} {s t : State} (hx : exec i s = .next t) (hi : ∀ cfg, i ≠ .init cfg) :
    SameConfig s t := by
  obtain ⟨u, m, a⟩ := exec_moves hx
  exact (m.sameConfig hi).trans a.framed.toSameConfig

/-! ## One step -/

/-- A predicate that reset establishes, and that the outside world's inputs, an illegal word, the clock and
every triggered instruction keep, is kept by every step. -/
theorem step_keeps {P : State → Prop}
    (reset : ∀ u, P (platformReset u))
    (inputs : ∀ u moves answers words records, P u →
      P { u with agenda := moves, oracle := answers, cmdPort := words, cfgPort := records })
    (illegal : ∀ u, P u → P (u.respond .illegalCommand 0))
    (clock : ∀ u now, P u → P { u with nowNs := now })
    (instr : ∀ i u v, P u → Triggered i u → exec i u = .next v → P v)
    {s t : State} (hs : step s = .next t) (h : P s) : P t := by
  rcases step_cases hs with ⟨_, -, rfl⟩ | ⟨-, ⟨-, rfl⟩ | ⟨a, rest, i, ws, cs, -, -, he, hx⟩ |
    ⟨a, rest, ws, cs, -, rfl⟩ | ⟨a, rest, -, rfl⟩ | ⟨w, rest, i, id, -, -, hid, hdue, hx⟩ |
    ⟨w, rest, -, rfl⟩ | ⟨t', rest, -, -, rfl⟩ | ⟨t', rest, -, rfl⟩⟩
  · exact reset _
  · exact h
  · exact instr i _ t (inputs s rest a ws cs h) (fun hev => absurd hev (by simp [he])) hx
  · exact illegal _ (inputs s rest a ws cs h)
  · exact inputs s rest a s.cmdPort s.cfgPort h
  · obtain ⟨armed, -⟩ := Bool.and_eq_true_iff.mp hdue
    exact instr i _ t (inputs s rest s.oracle s.cmdPort s.cfgPort h) (fun _ => ⟨id, hid, armed⟩) hx
  · exact inputs s rest s.oracle s.cmdPort s.cfgPort h
  · exact clock _ t' (inputs s rest s.oracle s.cmdPort s.cfgPort h)
  · exact inputs s rest s.oracle s.cmdPort s.cfgPort h

/-- Reset establishes I1 to I6, whatever the outside world supplies. -/
theorem platformReset_invariants (u : State) : (platformReset u).Invariants where
  brightBounded c := by simp [platformReset, State.reset]
  oneEffect := .inl rfl
  unassignedZero c _ := by simp [platformReset, State.reset, Timer.atReset]
  softTimersLive c ha := absurd ha (by simp [platformReset, State.reset, Timer.atReset])
  quietUnlessRunning _ := ⟨fun id => by
    cases id <;> simp [State.timer, platformReset, State.reset, Timer.atReset], rfl⟩
  pulseHasTarget hp := absurd hp (by simp [platformReset, State.reset])

theorem step_invariants {s t : State} (hs : step s = .next t) (h : s.Invariants) : t.Invariants :=
  step_keeps (P := State.Invariants)
    (reset := platformReset_invariants)
    (inputs := fun _ _ _ _ _ hu => { hu with })
    (illegal := fun _ hu => { hu with })
    (clock := fun _ _ hu => { hu with })
    (instr := fun _ _ _ hu trigger hx => exec_invariants hx hu trigger)
    hs h

/-- Settles O19: `step_keeps` with I1 to I6, each operation keeping them. -/
theorem invariantsKept : Obligations.InvariantsKept :=
  ⟨platformReset_invariants State.reset, fun _ _ _ h hs _ => step_invariants hs h⟩

/-- Settles O56, by `Moves.framed_or`. -/
theorem configurationWrittenOnlyByInit : Obligations.ConfigurationWrittenOnlyByInit := by
  intro i s t hx hi
  obtain ⟨hk, hm, hl, hv, hp⟩ := exec_sameConfig hx hi
  exact ⟨hk, hm, hl, hv, hp⟩

end Sys2Proof.Machine
end

section
/-! Good states (10_state.md rules R26, R42; 70_reset_and_hazards.md rule R139): the configuration INIT leaves,
the range of STEP, and why no instruction faults; every step keeps a good state good. -/

namespace Sys2Proof.Machine

/-! ## The configuration -/

theorem SameConfig.configured {s t : State} (h : SameConfig s t) (hc : s.Configured) : t.Configured := by
  obtain ⟨colours, period, maxima, shortest, softPulse, tables⟩ := hc
  obtain ⟨hk, hm, hl, hv, hp⟩ := h
  constructor <;> simpa only [hk, hm, hl, hv, hp]

/-- INIT's validation, check by check (70_reset_and_hazards.md rule R139, V1 to V7). -/
theorem validConfig_iff (cfg : ConfigRecord) : validConfig cfg = true ↔
    countOk cfg = true ∧ colorsDistinct cfg = true ∧ requiredColors cfg = true ∧
      maximaPositive cfg = true ∧ levelsOk cfg = true ∧ periodOk cfg = true ∧
      softLthPositive cfg = true := by
  simp only [validConfig, Bool.and_eq_true, and_assoc]

/-- What INIT's commit gives the channel of an entry. -/
theorem commitConfig_entry {cfg : ConfigRecord} {c : Channel} {e : Entry} (he : entryFor cfg c = some e)
    (s : State) :
    (commitConfig cfg s).kind.get c = kindOfEntry e.kind ∧
    (commitConfig cfg s).maxb.get c = e.maxBrightness ∧
    (commitConfig cfg s).levels.get c = e.levels ∧
    (commitConfig cfg s).lth.get c = configPeriod cfg / e.maxBrightness := by
  simp [commitConfig, he]

/-- A channel that INIT assigns has an entry in the record. -/
theorem commitConfig_assigned {cfg : ConfigRecord} {s : State} {c : Channel}
    (h : (commitConfig cfg s).kind.get c ≠ .unassigned) : ∃ e ∈ cfg, entryFor cfg c = some e := by
  obtain ⟨e, he⟩ := Option.ne_none_iff_exists'.mp fun hn => h ((commitConfig_unassigned_iff cfg s c).mpr hn)
  exact ⟨e, (entryFor_some he).1, he⟩

/-- The commit of a valid record assigns every channel but White (10_state.md rule R44). -/
theorem commitConfig_colours {cfg : ConfigRecord} (valid : validConfig cfg = true) (s : State) {c : Channel}
    (hc : c ≠ .white) : (commitConfig cfg s).kind.get c ≠ .unassigned := by
  obtain ⟨-, -, required, -⟩ := (validConfig_iff cfg).mp valid
  simp only [requiredColors, Bool.and_eq_true, Option.isSome_iff_ne_none] at required
  obtain ⟨⟨hr, hg⟩, hb⟩ := required
  rw [ne_eq, commitConfig_unassigned_iff]
  cases c with
  | red => exact hr
  | green => exact hg
  | blue => exact hb
  | white => exact absurd rfl hc

/-- A valid record's commit is a configuration INIT accepts. -/
theorem commitConfig_configured {cfg : ConfigRecord} (valid : validConfig cfg = true) (s : State) :
    (commitConfig cfg s).Configured := by
  obtain ⟨-, -, -, maxima, levels, period, soft⟩ := (validConfig_iff cfg).mp valid
  have entry : ∀ {c}, (commitConfig cfg s).kind.get c ≠ .unassigned → ∃ e ∈ cfg, entryFor cfg c = some e :=
    commitConfig_assigned
  exact {
    colours := ⟨commitConfig_colours valid s (c := .red) (by decide),
      commitConfig_colours valid s (c := .green) (by decide),
      commitConfig_colours valid s (c := .blue) (by decide)⟩
    period := by simpa [periodOk, commitConfig] using period
    maxima := fun c hk => by
      obtain ⟨e, hmem, he⟩ := entry hk
      obtain ⟨-, hm, -⟩ := commitConfig_entry he s
      rw [hm]
      simpa using List.all_eq_true.mp maxima e hmem
    shortest := fun c hk => by
      obtain ⟨e, -, he⟩ := entry hk
      obtain ⟨-, hm, -, hl⟩ := commitConfig_entry he s
      rw [hm, hl]
      rfl
    softPulse := fun c hk => by
      obtain ⟨e, hmem, he⟩ := entry (c := c) (by rw [hk]; decide)
      obtain ⟨hkind, -, -, hl⟩ := commitConfig_entry he s
      have hs : e.kind = .softwarePWM := by
        cases h : e.kind
        case softwarePWM => rfl
        case hardwarePWM => rw [hkind, h] at hk; cases hk
      rw [hl]
      simpa [hs] using List.all_eq_true.mp soft e hmem
    tables := fun c t ht => by
      have hk : (commitConfig cfg s).kind.get c ≠ .unassigned := fun hu => by
        rw [commitConfig_unassigned_iff] at hu
        simp [commitConfig, hu] at ht
      obtain ⟨e, hmem, he⟩ := entry hk
      obtain ⟨-, hm, hlev, -⟩ := commitConfig_entry he s
      refine ⟨hk, ?_⟩
      rw [hm]
      simpa [← hlev, ht] using List.all_eq_true.mp levels e hmem }

theorem init_sameConfig (cfg : ConfigRecord) (s : State) :
    SameConfig (commitConfig cfg s) { initialised cfg s with lifecycle := .running } :=
  ⟨initialised_kind cfg s, initialised_maxb cfg s, initialised_lth cfg s, initialised_levels cfg s,
    initialised_periodNs cfg s⟩

theorem Moves.configured {i : Instr} {s u : State} (m : Moves i s u)
    (h : s.lifecycle ≠ .unconfigured → s.Configured) : u.lifecycle ≠ .unconfigured → u.Configured := by
  intro hu
  rcases m.framed_or with hf | ⟨-, running, rfl⟩ | ⟨cfg, v, -, -, valid, -, rfl⟩
  · exact hf.configured (h (hf.lifecycle ▸ hu))
  · exact (shutdown_sameConfig s).configured (h (by rw [running]; decide))
  · exact (init_sameConfig cfg v).configured (commitConfig_configured valid v)

theorem Moves.unconfigured {i : Instr} {s u : State} (m : Moves i s u)
    (h : s.lifecycle = .unconfigured → ∀ c, s.kind.get c = .unassigned) :
    u.lifecycle = .unconfigured → ∀ c, u.kind.get c = .unassigned := by
  intro hu
  rcases m.framed_or with hf | ⟨-, -, rfl⟩ | ⟨cfg, v, -, -, -, -, rfl⟩
  · rw [hf.kind]
    exact h (hf.lifecycle ▸ hu)
  · cases hu
  · cases hu

/-- A channel with a levels table is assigned, and the table is the one LEVELS[c] holds (10_state.md rule
R43). -/
theorem levelsOf_eq_some {s : State} {c : Channel} {t : List Word} (h : s.levelsOf c = some t) :
    s.kind.get c ≠ .unassigned ∧ s.levels.get c = some t := by
  unfold State.levelsOf at h
  cases hk : s.kind.get c <;> rw [hk] at h
  case unassigned => cases h
  all_goals exact ⟨nofun, h⟩

/-- In a good state every levels table reaches MAXB: it has MAXB + 1 entries (20_memory.md rule R47). -/
theorem State.Good.tablesCover {s : State} (h : s.Good) : s.TablesCover := by
  intro c t ht
  obtain ⟨hk, hl⟩ := levelsOf_eq_some ht
  have conf := h.configured fun hu => hk (h.unconfigured hu c)
  obtain ⟨-, hshape⟩ := conf.tables c t hl
  simp only [levelsShape, Bool.and_eq_true, beq_iff_eq] at hshape
  obtain ⟨⟨hlen, -⟩, -⟩ := hshape
  rw [maxbOf_assigned hk, hlen]
  exact Nat.lt_succ_self _

theorem State.Good.configured_of_running {s : State} (h : s.Good) (running : s.lifecycle = .running) :
    s.Configured := h.configured (by rw [running]; decide)

/-! ## The range of STEP -/

/-- With no effect active STEP may hold anything. -/
theorem stepInRange_of_idle {s : State} (h : s.activeMask = 0) : s.StepInRange :=
  fun k hk => absurd (hk.symm.trans h) (effectBit_ne_zero k)

/-- The range of STEP is that of the one active effect. -/
theorem stepInRange_of_active {s : State} {k : Effect} (ha : s.activeMask = effectBit k)
    (h : s.fxStep.toNat < s.stepLimit k) : s.StepInRange := by
  intro l hl
  obtain rfl := effectBit_injective (ha.symm.trans hl)
  exact h

theorem Answered.stepInRange {s t : State} (ha : Answered s t) (h : s.StepInRange) : t.StepInRange := by
  rw [ha.same]
  exact h

theorem Refreshed.stepInRange {s t : State} (hr : Refreshed s t) (h : s.StepInRange) : t.StepInRange := by
  rw [hr.same]
  exact h

/-- A configuration assigns every channel but White (10_state.md rule R44). -/
theorem State.Configured.assigned {s : State} (h : s.Configured) {c : Channel} (hc : c ≠ .white) :
    s.kind.get c ≠ .unassigned := by
  obtain ⟨hr, hg, hb⟩ := h.colours
  cases c with
  | red => exact hr
  | green => exact hg
  | blue => exact hb
  | white => exact absurd rfl hc

/-- The moving channel of a Rainbow phase is never White, so a configuration gives it a maximum. -/
theorem State.Configured.wheel_maxb {s : State} (h : s.Configured) (p : Fin 6) :
    s.maxb.get (wheelMoving p) ≠ 0 :=
  h.maxima _ (h.assigned (by revert p; decide))

theorem word_toNat_pos {v : Word} (h : v ≠ 0) : 0 < v.toNat :=
  Nat.pos_of_ne_zero fun hz => h (BitVec.eq_of_toNat_eq hz)

theorem State.Configured.stepLimit_pos {s : State} (h : s.Configured) (k : Effect) : 0 < s.stepLimit k := by
  cases k with
  | rainbow => exact word_toNat_pos (h.wheel_maxb s.phase)
  | pulse | blink | heartbeat => exact Nat.succ_pos _

theorem activate_stepInRange {s : State} (h : s.Configured) (k : Effect) (target : Option Channel) :
    (activate k target s).StepInRange := by
  have hc : (activate k target s).Configured := (activate_framed k target s).configured h
  exact stepInRange_of_active rfl (hc.stepLimit_pos k)

/-- Pulse's STEP counts to 74 and wraps (42_effects.md rule R96). -/
theorem pulseStep_lt {x : Word} (h : x.toNat < 75) : (if x = 74 then 0 else x + 1).toNat < 75 := by
  split
  · decide
  · rename_i hx
    bv_omega

/-- Blink's STEP toggles between 0 and 1 (42_effects.md rule R97). -/
theorem blinkStep_lt {x : Word} (h : x.toNat < 2) : (1 - x).toNat < 2 := by bv_omega

/-- Every tick's body leaves STEP in the range of its effect (10_state.md rule R26). -/
theorem BodyMoves.stepInRange {k : Effect} {s t : State} (hb : BodyMoves k s t) (conf : s.Configured)
    (active : s.activeMask = effectBit k) (range : s.StepInRange) : t.StepInRange := by
  have hm : t.activeMask = effectBit k := (congrArg State.activeMask hb.same).trans active
  have h : s.fxStep.toNat < s.stepLimit k := range k active
  refine stepInRange_of_active hm ?_
  cases hb with
  | pulse => exact pulseStep_lt h
  | blink => exact blinkStep_lt h
  | heartbeat =>
    show (BitVec.ofNat 32 ((s.fxStep.toNat + 1) % 4)).toNat < 4
    rw [BitVec.toNat_ofNat]
    omega
  | rainbow hr =>
    have h : s.fxStep.toNat < (s.maxb.get (wheelMoving s.phase)).toNat := h
    simp only [rainbowBody] at hr
    cases hr
    split
    · exact word_toNat_pos (conf.wheel_maxb _)
    · rename_i hlt
      show (s.fxStep + 1).toNat < (s.maxb.get (wheelMoving s.phase)).toNat
      have := BitVec.le_def.mp (maxbOf_le s (wheelMoving s.phase))
      rw [BitVec.toNat_add]
      have hone : (1 : Word).toNat = 1 := rfl
      omega

theorem Moves.stepInRange {i : Instr} {s u : State} (m : Moves i s u) (h : s.Good) : u.StepInRange := by
  have restored : ∀ {k}, maskHas s.activeMask k = true → (restoredFrom k s).StepInRange := fun hk =>
    stepInRange_of_idle (h.invariants.oneEffect.maskClear_active hk)
  have ticked : ∀ {k b}, maskHas s.activeMask k = true → BodyMoves k (s.disarmFxt k) b → b.StepInRange :=
    fun {k _} hk body => by
      have conf := h.configured_of_running (h.invariants.running_of_active hk)
      exact body.stepInRange ((disarmFxt_framed k s).configured conf)
        (h.invariants.oneEffect.eq_effectBit hk) h.stepInRange
  cases m with
  | setb _ _ _ _ refresh => exact refresh.stepInRange h.stepInRange
  | update _ refresh => exact refresh.stepInRange h.stepInRange
  | act running => exact activate_stepInRange (h.configured_of_running running) _ _
  | actReplace running _ _ _ refresh =>
    have hf := (restoredFrom_framed _ s).trans refresh.framed
    exact activate_stepInRange (hf.configured (h.configured_of_running running)) _ _
  | actStop _ active refresh => exact refresh.stepInRange (restored (maskHas_of_effectBit active))
  | deact _ _ active refresh => exact refresh.stepInRange (restored active)
  | shutdown => exact stepInRange_of_idle (turnedOff_activeMask s)
  | initFailed _ _ handles =>
    obtain ⟨_, _, rfl⟩ := acquire_log_only handles
    exact h.stepInRange
  | init => exact stepInRange_of_idle (by simp [commitConfig])
  | tick _ active body refresh => exact refresh.stepInRange (ticked active body)
  | tickStop _ active body refresh => exact refresh.stepInRange (ticked active body)
  | keep | fireSteady | fireToggle | fireStop | tickQuiet => exact h.stepInRange

/-! ## No instruction faults in a good state -/

/-- The procedure ends, with FAULT NONE. -/
def Proc.FaultFree (p : Proc) : Prop := ∃ t, p = .ok t ∧ t.fault = .none

/-- The next state, if there is one, has FAULT NONE. -/
def FaultFreeOutcome (o : Host.Outcome State Fault Refusal) : Prop := ∀ t, o = .next t → t.fault = .none

theorem reject_faultFree {s : State} (h : s.fault = .none) (st : Status) : FaultFreeOutcome (reject st s) := by
  intro t ht
  rw [reject_next ht]
  exact h

theorem endCommand_faultFree {p : Proc} (h : p.FaultFree) (i : Instr) : FaultFreeOutcome (endCommand i p) := by
  obtain ⟨u, rfl, hu⟩ := h
  intro t ht
  cases ht
  exact hu

theorem endEvent_faultFree {p : Proc} (h : p.FaultFree) (i : Instr) : FaultFreeOutcome (endEvent i p) := by
  obtain ⟨u, rfl, hu⟩ := h
  intro t ht
  cases ht
  exact hu

theorem channelUpdate_faultFree {s : State} (hc : s.TablesCover) (hf : s.fault = .none) (c : Channel) :
    (channelUpdate c s).FaultFree := by
  have hr := channelUpdate_refreshed c s
  rw [channelUpdate_covered hc] at hr ⊢
  exact ⟨_, rfl, hr.fault.trans hf⟩

theorem updateStatus_faultFree {s : State} (hc : s.TablesCover) (hf : s.fault = .none) :
    (updateStatus s).FaultFree :=
  ⟨_, updateStatus_covered hc, (refreshed_refreshed hc).fault.trans hf⟩

theorem deactivate_faultFree {s : State} (hc : s.TablesCover) (hf : s.fault = .none) (k : Effect) :
    (deactivate k s).FaultFree := updateStatus_faultFree (hc.congr rfl rfl rfl) hf

theorem deactivateActive_faultFree {s : State} (h : s.Good) : (deactivateActive s).FaultFree := by
  unfold deactivateActive
  split
  · exact ⟨s, rfl, h.noFault⟩
  · rename_i hz
    obtain ⟨a, ha⟩ := h.invariants.oneEffect.resolve_left hz
    rw [ha, activeEffect_effectBit]
    exact deactivate_faultFree h.tablesCover h.noFault a

/-- A tick does not fault when its body does not. -/
theorem tick_faultFree {k : Effect} {s : State} (h : s.Good) (d : Nat) {body : State → Proc}
    (hb : maskHas s.activeMask k = true →
      ∃ b, body (s.disarmFxt k) = .ok b ∧ BodyMoves k (s.disarmFxt k) b) :
    (tick k d body s).FaultFree := by
  cases ha : maskHas s.activeMask k with
  | false => exact ⟨_, tick_inactive ha d body, h.noFault⟩
  | true =>
    obtain ⟨b, hbody, hm⟩ := hb ha
    have hcb : b.TablesCover := h.tablesCover.congr hm.framed.kind hm.framed.maxb hm.framed.levels
    have hf : b.fault = s.fault := by rw [hm.same]; rfl
    exact ⟨_, tick_covered ha hbody hcb, ((refreshed_refreshed hcb).fault.trans hf).trans h.noFault⟩

/-- Pulse's body finds its target and its table entry (10_state.md rules R26, R42 I6). -/
theorem pulseBody_good {s : State} (h : s.Good) (ha : maskHas s.activeMask .pulse = true) :
    ∃ b, pulseBody (s.disarmFxt .pulse) = .ok b ∧ BodyMoves .pulse (s.disarmFxt .pulse) b := by
  obtain ⟨c, hc, -⟩ := h.invariants.pulseHasTarget ha
  have hr := pulseRead_in_range (h.stepInRange .pulse (h.invariants.oneEffect.eq_effectBit ha))
  have hb : ∃ b, pulseBody (s.disarmFxt .pulse) = .ok b := by
    simp [pulseBody, hc, hr]
  obtain ⟨b, hb⟩ := hb
  exact ⟨b, hb, pulseBody_ok hb⟩

/-- Strictly between 0 and MAXB a SoftwarePWM channel's High interval is positive and shorter than the
period (41_softpwm.md rule R87). -/
theorem pulseNs_bounds {s : State} (conf : s.Configured) {c : Channel} (soft : s.kind.get c = .softwarePWM)
    (h0 : s.brightOf c ≠ 0) (hlt : s.brightOf c < s.maxbOf c) :
    0 < pulseNs c s ∧ pulseNs c s < s.periodNs.toNat := by
  have hk : s.kind.get c ≠ .unassigned := by rw [soft]; decide
  have hl : 0 < (s.lthOf c).toNat := by
    rw [lthOf_assigned hk]
    exact word_toNat_pos (conf.softPulse c soft)
  refine ⟨Nat.mul_pos (word_toNat_pos h0) hl, ?_⟩
  calc (s.brightOf c).toNat * (s.lthOf c).toNat
      < (s.maxbOf c).toNat * (s.lthOf c).toNat := Nat.mul_lt_mul_of_pos_right (BitVec.lt_def.mp hlt) hl
    _ = (s.maxb.get c).toNat * (s.periodNs.toNat / (s.maxb.get c).toNat) := by
      rw [maxbOf_assigned hk, lthOf_assigned hk, conf.shortest c hk, BitVec.toNat_udiv]
    _ ≤ s.periodNs.toNat := Nat.mul_div_le _ _

theorem toggleDelay_isSome (l : Level) {pulse period : Nat} (h0 : 0 < pulse) (hp : pulse < period) :
    ∃ d, toggleDelay l pulse period = some d := by
  cases l with
  | high => exact ⟨pulse, if_neg (by omega)⟩
  | low => exact ⟨period - pulse, if_neg (by omega)⟩

/-- A firing between the ends, its interval being positive (41_softpwm.md rule R86, step 3). -/
theorem toggle_ok {c : Channel} {s : State} {d : Nat}
    (h : toggleDelay (s.swLevel.get c).flip (pulseNs c s) s.periodNs.toNat = some d) :
    toggle c s = .ok (((s.setSwLevel c (s.swLevel.get c).flip).armSwt c (s.deadlineIn d)).emit c
      (.gpioWrite (s.swLevel.get c).flip)) := by
  have hp : pulseNs c (s.setSwLevel c (s.swLevel.get c).flip) = pulseNs c s := rfl
  simp only [toggle, hp, State.setSwLevel_periodNs, h]
  rfl

theorem fireChannel_faultFree {s : State} (conf : s.Configured) (hf : s.fault = .none) {c : Channel}
    (soft : s.kind.get c = .softwarePWM) : (fireChannel c s).FaultFree := by
  simp only [fireChannel]
  split
  · exact ⟨_, rfl, hf⟩
  · rename_i hlt
    split
    · exact ⟨_, rfl, hf⟩
    · rename_i h0
      obtain ⟨hpos, hper⟩ := pulseNs_bounds (s := s) conf soft h0 (BitVec.not_le.mp hlt)
      obtain ⟨d, hd⟩ := toggleDelay_isSome (s.swLevel.get c).flip hpos hper
      exact ⟨_, toggle_ok (s := s.disarmSwt c) hd, hf⟩

/-- A FIRE of an armed timer names a SoftwarePWM channel of a running block (10_state.md rule R42, I4). -/
theorem fireBody_faultFree {ch : BitVec 4} {s : State} (h : s.Good) {c : Channel}
    (hc : Channel.ofField ch = some c) (ha : (s.swt.get c).armed = true) : (fireBody ch s).FaultFree := by
  obtain ⟨soft, running⟩ := h.invariants.softTimersLive c ha
  simp only [fireBody, hc, soft]
  exact fireChannel_faultFree (h.configured_of_running running) h.noFault soft

theorem execSetb_faultFree {s : State} (h : s.Good) (ch : BitVec 4) (v : Word) :
    FaultFreeOutcome (execSetb ch v s) := by
  have rej := reject_faultFree h.noFault
  unfold execSetb
  split
  · exact rej _
  · split
    · exact rej _
    · rename_i c _
      split
      · exact rej _
      · split
        · exact rej _
        · have hc : (s.setBright c v).TablesCover := h.tablesCover.congr rfl rfl rfl
          exact endCommand_faultFree (channelUpdate_faultFree hc h.noFault c) _

theorem execAct_faultFree {s : State} (h : s.Good) (ch ef : BitVec 4) : FaultFreeOutcome (execAct ch ef s) := by
  have rej := reject_faultFree h.noFault
  unfold execAct
  split
  · exact rej _
  · split
    · exact rej _
    · split
      · exact rej _
      · obtain ⟨u, hu, hf⟩ := deactivateActive_faultFree h
        rw [hu, Proc.andThen_ok]
        refine endCommand_faultFree ?_ _
        exact ⟨_, rfl, hf⟩

theorem execDeact_faultFree {s : State} (h : s.Good) (ef : BitVec 4) : FaultFreeOutcome (execDeact ef s) := by
  have rej := reject_faultFree h.noFault
  unfold execDeact
  split
  · exact rej _
  · split
    · exact rej _
    · refine endCommand_faultFree ?_ _
      split
      · exact deactivate_faultFree h.tablesCover h.noFault _
      · exact ⟨s, rfl, h.noFault⟩

theorem execInit_faultFree {s : State} (hf : s.fault = .none) (cfg : ConfigRecord) :
    FaultFreeOutcome (execInit cfg s) := by
  unfold execInit
  split
  · exact reject_faultFree hf _
  · split
    · split <;> rename_i u handles <;> obtain ⟨evs, -, rfl⟩ := acquire_log_only handles
      · exact reject_faultFree (s := { s with log := s.log ++ s.stamped evs }) hf _
      · refine endCommand_faultFree ?_ _
        exact ⟨_, rfl, (initialised_fault cfg _).trans hf⟩
    · exact reject_faultFree hf _

theorem execShutdown_faultFree {s : State} (hf : s.fault = .none) : FaultFreeOutcome (execShutdown s) := by
  unfold execShutdown
  split
  · exact reject_faultFree hf _
  · refine endCommand_faultFree ?_ _
    exact ⟨_, rfl, (turnedOff_fault s).trans hf⟩

/-- No instruction faults in a good state. -/
theorem exec_faultFree {i : Instr} {s : State} (h : s.Good)
    (trigger : Triggered i s) : FaultFreeOutcome (exec i s) := by
  have rej := reject_faultFree h.noFault
  have event : ∀ {p : Proc}, p.FaultFree → FaultFreeOutcome (endEvent i p) := fun hp => endEvent_faultFree hp i
  cases i with
  | setb ch v => exact execSetb_faultFree h ch v
  | update =>
    simp only [exec, execUpdate]
    split
    · exact rej _
    · exact endCommand_faultFree (updateStatus_faultFree h.tablesCover h.noFault) _
  | act ch ef => exact execAct_faultFree h ch ef
  | deact ef => exact execDeact_faultFree h ef
  | shutdown => exact execShutdown_faultFree h.noFault
  | rdb ch =>
    simp only [exec, execRdb]
    split
    · exact rej _
    · intro t ht
      cases ht
      exact h.noFault
  | rdfx =>
    intro t ht
    cases ht
    exact h.noFault
  | init cfg => exact execInit_faultFree h.noFault cfg
  | fire ch =>
    obtain ⟨c, hc, ha⟩ := trigger.fire
    exact event (fireBody_faultFree h hc ha)
  | tickPulse => exact event (tick_faultFree h _ (pulseBody_good h))
  | tickBlink => exact event (tick_faultFree h _ fun _ => ⟨_, rfl, .blink _⟩)
  | tickHeartbeat => exact event (tick_faultFree h _ fun _ => ⟨_, rfl, .heartbeat _⟩)
  | tickRainbow => exact event (tick_faultFree h _ fun _ => ⟨_, rfl, .rainbow rfl⟩)

/-! ## Every step -/

/-- Being good does not depend on the time, the last response or the outside world's inputs. -/
theorem State.Good.congr {s t : State} (h : s.Good)
    (same : t = { s with
      nowNs := t.nowNs, response := t.response, cmdPort := t.cmdPort, cfgPort := t.cfgPort,
      oracle := t.oracle, agenda := t.agenda }) : t.Good := by
  rw [same]
  exact { h with
    invariants := { h.invariants with }
    configured := fun hl => { h.configured hl with } }

theorem exec_good {i : Instr} {s t : State} (h : s.Good) (trigger : Triggered i s)
    (hx : exec i s = .next t) : t.Good := by
  obtain ⟨u, m, a⟩ := exec_moves hx
  exact {
    noFault := exec_faultFree h trigger t hx
    invariants := exec_invariants hx h.invariants trigger
    stepInRange := a.stepInRange (m.stepInRange h)
    configured := fun ht => a.framed.configured (m.configured h.configured (a.lifecycle ▸ ht))
    unconfigured := fun ht => by
      rw [a.kind]
      exact m.unconfigured h.unconfigured (a.lifecycle ▸ ht) }

/-- Reset leaves a good state, whatever the outside world supplies. -/
theorem platformReset_good (u : State) : (platformReset u).Good where
  noFault := rfl
  invariants := platformReset_invariants u
  stepInRange := stepInRange_of_idle rfl
  configured h := absurd rfl h
  unconfigured _ c := by simp [platformReset, State.reset]

/-- Settles O20: `step_keeps` with `State.Good`; no table read leaves its range, ACT finds at most one
effect, and a firing's interval is positive. -/
theorem goodStatesStayGood : Obligations.GoodStatesStayGood := fun _ _ h hs =>
  step_keeps (P := State.Good)
    (reset := platformReset_good)
    (inputs := fun _ _ _ _ _ hu => hu.congr rfl)
    (illegal := fun _ hu => hu.congr rfl)
    (clock := fun _ _ hu => hu.congr rfl)
    (instr := fun _ _ _ hu trigger hx => exec_good hu trigger hx)
    hs h

/-- Settles O21: `State.reset` is its own reset with nothing supplied. -/
theorem resetIsGood : Obligations.ResetIsGood := platformReset_good State.reset

end Sys2Proof.Machine
end

section
/-! The agents' steps one by one: the timer unit's event, the clock and its deadlines, a sticky fault, and the
state after reset (10_state.md rules R31, R33, R34, R41). -/

namespace Sys2Proof.Machine

/-! ## The timer unit -/

/-- A due timer's event word runs that event. -/
theorem eventTurn_due {w : Word} {s : State} {i : Instr} {id : TimerId} (hd : decode [w] [] = .instr i [] [])
    (hid : eventTimer i = some id) (due : s.due id = true) : eventTurn w s = exec i s := by
  simp only [eventTurn, hd, hid, due, if_true]

/-- Settles O8: the timer is due, so the event's turn runs it. -/
theorem stepRunsDueEvent : Obligations.StepRunsDueEvent := by
  intro s w rest i id hf ha hd hid armed past
  have due : State.due { s with agenda := rest } id = true := by
    rw [State.due, Bool.and_eq_true, decide_eq_true_eq]
    exact ⟨armed, past⟩
  simp only [step, ha]
  rw [unlessHalted_running hf, eventTurn_due hd hid due]

/-! ## The clock -/

theorem mem_allTimers (id : TimerId) : id ∈ allTimers := by
  rcases id with c | k
  · cases c <;> decide
  · cases k <;> decide

/-- The guard of ADVANCE (10_state.md rule R33). -/
theorem canAdvance_iff (t : Time) (s : State) : canAdvance t s = true ↔
    s.nowNs < t ∧ ∀ id, (s.timer id).armed = true →
      t.toNat ≤ (s.timer id).deadline.toNat + Config.timerLatencyMaxNs := by
  simp [canAdvance, mem_allTimers, imp_iff_not_or]

/-- Settles O11, by `canAdvance_iff`. -/
theorem advanceMovesTheClock : Obligations.AdvanceMovesTheClock := by
  intro s t' rest hf ha
  have turn : step s = clockTurn t' { s with agenda := rest } := by
    simp only [step, ha]
    exact unlessHalted_running hf _
  have guard := canAdvance_iff t' { s with agenda := rest }
  rw [turn, clockTurn]
  exact ⟨fun h => by rw [if_pos (guard.mpr h)], fun h => by rw [if_neg fun hc => h (guard.mp hc)]⟩

/-- How a step leaves the time: as it was, moved on by an enabled ADVANCE, or set back by a reset. -/
theorem step_nowNs {s t : State} (hs : step s = .next t) :
    t.nowNs = s.nowNs ∨
    (∃ t' rest, s.agenda = .advance t' :: rest ∧ canAdvance t' s = true ∧ t.nowNs = t') ∨
    (∃ rest, s.agenda = .reset :: rest ∧ t = platformReset { s with agenda := rest }) := by
  rcases step_cases hs with ⟨rest, ha, ht⟩ | ⟨-, ⟨-, rfl⟩ | ⟨a, rest, i, ws, cs, -, -, -, hx⟩ |
    ⟨a, rest, ws, cs, -, rfl⟩ | ⟨a, rest, -, rfl⟩ | ⟨w, rest, i, id, -, -, -, -, hx⟩ |
    ⟨w, rest, -, rfl⟩ | ⟨t', rest, ha, guard, rfl⟩ | ⟨t', rest, -, rfl⟩⟩
  · exact .inr (.inr ⟨rest, ha, ht⟩)
  · exact .inl rfl
  · have he := exec_nowNs hx
    exact .inl he
  · exact .inl rfl
  · exact .inl rfl
  · have he := exec_nowNs hx
    exact .inl he
  · exact .inl rfl
  · exact .inr (.inl ⟨t', rest, ha, guard, rfl⟩)
  · exact .inl rfl

/-- Settles O12, by the three ways a step leaves the time (`step_nowNs`). -/
theorem timeMovesOnlyByAdvance : Obligations.TimeMovesOnlyByAdvance := by
  intro s t hs hne
  rcases step_nowNs hs with he | ⟨t', rest, ha, guard, ht⟩ | ⟨rest, ha, rfl⟩
  · exact absurd he hne
  · exact .inl ⟨t', rest, ha, ((canAdvance_iff t' s).mp guard).1, ht⟩
  · exact .inr ⟨rest, ha, rfl⟩

/-- Settles O13: the time is as it was, or ADVANCE's guard bounds it, or it is 0. -/
theorem clockNeverOverrunsADeadline : Obligations.ClockNeverOverrunsADeadline := by
  intro s t id punctual hs same armed
  rw [same] at armed ⊢
  rcases step_nowNs hs with he | ⟨t', rest, -, guard, ht⟩ | ⟨rest, -, rfl⟩
  · rw [he]
    exact punctual id armed
  · rw [ht]
    exact ((canAdvance_iff t' s).mp guard).2 id armed
  · exact Nat.zero_le _

/-! ## A fault, and reset -/

/-- A faulted block answers no agent. -/
theorem unlessHalted_faulted {s : State} (h : s.fault ≠ .none) (o : Host.Outcome State Fault Refusal) :
    unlessHalted s o = .fault (.halted s.fault) := by
  cases hf : s.fault with
  | none => exact absurd hf h
  | intervalNonpositive => simp only [unlessHalted, hf]
  | invariantViolation => simp only [unlessHalted, hf]

/-- Settles O14: every agent's turn is gated by FAULT, and reset is not. -/
theorem faultStopsTheBlock : Obligations.FaultStopsTheBlock := by
  refine ⟨rfl, rfl, rfl, fun s hf noReset => ?_, fun s rest ha => ?_⟩
  · cases ha : s.agenda with
    | nil => simp only [step, ha, unlessHalted_faulted hf]
    | cons m rest =>
      cases m with
      | reset => exact absurd ha (noReset rest)
      | host | event | advance => simp only [step, ha, unlessHalted_faulted hf]
  · exact ⟨platformReset { s with agenda := rest }, by simp only [step, ha], rfl⟩

/-- Settles O15, by reading each register of the reset state. -/
theorem resetValues : Obligations.ResetValues := by
  refine ⟨fun c => ?_, fun k => ?_, ?_⟩
  · cases c <;> decide
  · cases k <;> decide
  · decide

/-! ## FIRE of no SoftwarePWM channel -/

/-- A FIRE that names no SoftwarePWM channel stops at once. -/
theorem fireBody_notSoft {ch : BitVec 4} {s : State}
    (h : ∀ c, Channel.ofField ch = some c → s.kind.get c ≠ .softwarePWM) :
    fireBody ch s = .stop .invariantViolation s := by
  unfold fireBody
  split
  · rfl
  · rename_i c hc
    split
    · rename_i soft
      exact absurd soft (h c hc)
    · rfl
    · rfl

/-- Settles O49, by `fireBody_notSoft`. -/
theorem fireOfNoSoftChannelFaults : Obligations.FireOfNoSoftChannelFaults := by
  intro s ch h
  simp only [exec, execFire, fireBody_notSoft h, endEvent_stop, State.raiseFault]

end Sys2Proof.Machine
end

section
/-! What every instruction emits (10_state.md rules R36, R37): its events are appended to the log, the ports
follow them, and none is an Unassigned channel's (rules R43, R44). -/

namespace Sys2Proof.Machine

/-! ## Events of assigned channels -/

/-- From `s` to `u` events have been emitted, each on a channel that `s` assigns. -/
def Emits (s u : State) : Prop :=
  ∃ es, s.Emitted es u ∧ ∀ ce ∈ es, s.kind.get ce.1 ≠ .unassigned

/-- `t` has KIND, the log, the time and the ports of `s`. -/
structure SameOutputs (s t : State) : Prop where
  kind      : t.kind = s.kind
  log       : t.log = s.log
  nowNs     : t.nowNs = s.nowNs
  generator : t.generator = s.generator
  pin       : t.pin = s.pin

theorem State.Emitted.congr_outputs {s s' u u' : State} {es : List (Channel × PortEvent)}
    (h : s.Emitted es u) (hs : SameOutputs s s') (hu : SameOutputs u u') : s'.Emitted es u' :=
  h.congr hs.log hs.nowNs hs.generator hs.pin hu.log hu.generator hu.pin

theorem Emits.congr {s s' u u' : State} (h : Emits s u) (hs : SameOutputs s s') (hu : SameOutputs u u') :
    Emits s' u' := by
  obtain ⟨es, he, hk⟩ := h
  refine ⟨es, he.congr_outputs hs hu, ?_⟩
  rwa [hs.kind]

theorem Emits.refl (s : State) : Emits s s := ⟨[], .refl s, by simp⟩

theorem SameOutputs.refl (s : State) : SameOutputs s s := ⟨rfl, rfl, rfl, rfl, rfl⟩

theorem SameOutputs.emits {s t : State} (h : SameOutputs s t) : Emits s t :=
  (Emits.refl s).congr (.refl s) h

theorem emit_emits {s : State} {c : Channel} (h : s.kind.get c ≠ .unassigned) (e : PortEvent) :
    Emits s (s.emit c e) := ⟨[(c, e)], s.emit_emitted c e, by simpa using h⟩

theorem Answered.sameOutputs {s t : State} (h : Answered s t) : SameOutputs s t :=
  ⟨h.kind, h.log, h.nowNs, h.generator, h.pin⟩

/-- What a tick emits comes from its refresh. -/
theorem BodyMoves.emits {k : Effect} {s b u : State} (hb : BodyMoves k (s.disarmFxt k) b)
    (hr : Refreshed b u) : Emits s u := by
  have hs : SameOutputs b s := by
    rw [hb.same]
    exact ⟨rfl, rfl, rfl, rfl, rfl⟩
  exact Emits.congr hr.events hs (.refl u)

/-- SHUTDOWN's off-writes and releases are assigned channels' only (43_facade.md rule R111). -/
theorem offWrites_releases_assigned (k : Bank Kind) :
    ∀ ce ∈ offWrites k ++ releases k, k.get ce.1 ≠ .unassigned := by
  intro ce hce
  rcases List.mem_append.mp hce with hm | hm
  · obtain ⟨c, -, hc⟩ := List.mem_flatMap.mp hm
    cases hk : k.get c <;> simp only [hk, List.mem_singleton, List.not_mem_nil] at hc
    all_goals
      subst hc
      rw [hk]
      decide
  · obtain ⟨c, -, hc⟩ := List.mem_flatMap.mp hm
    split at hc
    · cases hc
    · rename_i hk
      rw [List.mem_singleton.mp hc]
      exact hk

/-- Stamped events tell the events. -/
theorem stamped_injective (s : State) : Function.Injective s.stamped :=
  List.map_injective_iff.mpr fun x y h => by
    obtain ⟨-, hc, he⟩ := LogEntry.mk.inj h
    exact Prod.ext hc he

/-- The events by which the log has grown are determined. -/
theorem State.Emitted.events_unique {s t : State} {es fs : List (Channel × PortEvent)} (h : s.Emitted es t)
    (g : t.log = s.log ++ s.stamped fs) : fs = es :=
  stamped_injective s (List.append_cancel_left (g.symm.trans h.log))

theorem turnedOff_emits (s : State) : Emits s (turnedOff s) := by
  obtain ⟨es, he⟩ := turnedOff_emitted s
  refine ⟨es, he, ?_⟩
  rw [← he.events_unique (turnedOff_log s)]
  exact offWrites_releases_assigned s.kind

/-- Every instruction but INIT emits events of assigned channels only. -/
theorem Moves.emits {i : Instr} {s u : State} (m : Moves i s u) (hi : ∀ cfg, i ≠ .init cfg) : Emits s u := by
  cases m with
  | setb _ _ _ _ refresh => exact Emits.congr refresh.events ⟨rfl, rfl, rfl, rfl, rfl⟩ (.refl u)
  | update _ refresh => exact refresh.events
  | actReplace _ _ _ _ refresh =>
    exact Emits.congr refresh.events ⟨rfl, rfl, rfl, rfl, rfl⟩ ⟨rfl, rfl, rfl, rfl, rfl⟩
  | actStop _ _ refresh => exact Emits.congr refresh.events ⟨rfl, rfl, rfl, rfl, rfl⟩ (.refl u)
  | deact _ _ _ refresh => exact Emits.congr refresh.events ⟨rfl, rfl, rfl, rfl, rfl⟩ (.refl u)
  | shutdown => exact (turnedOff_emits s).congr (.refl s) ⟨rfl, rfl, rfl, rfl, rfl⟩
  | initFailed => exact absurd rfl (hi _)
  | init => exact absurd rfl (hi _)
  | @fireSteady _ c l _ _ soft =>
    have hk : ((s.disarmSwt c).setSwLevel c l).kind.get c ≠ .unassigned := by
      simp only [State.setSwLevel_kind, State.disarmSwt_kind, soft]
      decide
    exact (emit_emits hk _).congr ⟨rfl, rfl, rfl, rfl, rfl⟩ (.refl _)
  | @fireToggle _ c l d _ _ soft =>
    have hk : (((s.disarmSwt c).setSwLevel c l).armSwt c (s.deadlineIn d)).kind.get c ≠ .unassigned := by
      simp only [State.armSwt_kind, State.setSwLevel_kind, State.disarmSwt_kind, soft]
      decide
    exact (emit_emits hk _).congr ⟨rfl, rfl, rfl, rfl, rfl⟩ (.refl _)
  | tick _ _ body refresh => exact (body.emits refresh).congr (.refl s) ⟨rfl, rfl, rfl, rfl, rfl⟩
  | tickStop _ _ body refresh => exact body.emits refresh
  | keep | act | fireStop | tickQuiet => exact SameOutputs.emits ⟨rfl, rfl, rfl, rfl, rfl⟩

theorem exec_emits {i : Instr} {s t : State} (hx : exec i s = .next t) (hi : ∀ cfg, i ≠ .init cfg) :
    Emits s t := by
  obtain ⟨u, m, a⟩ := exec_moves hx
  exact (m.emits hi).congr (.refl s) a.sameOutputs

/-! ## INIT -/

/-- No instruction but INIT starts a block that does not run. -/
theorem exec_stays_idle {i : Instr} {s t : State} (hx : exec i s = .next t) (hi : ∀ cfg, i ≠ .init cfg)
    (idle : s.lifecycle ≠ .running) : t.lifecycle ≠ .running := by
  obtain ⟨u, m, a⟩ := exec_moves hx
  rw [a.lifecycle]
  rcases m.framed_or with hf | ⟨-, running, -⟩ | ⟨cfg, -, rfl, -⟩
  · rwa [hf.lifecycle]
  · exact absurd running idle
  · exact absurd rfl (hi cfg)

/-- INIT's acquisition, then its off-writes, from ports that are UNKNOWN (log entry 13). -/
theorem init_emitted {es : List (Entry × Bool)} {ok : Bool} {cfg : ConfigRecord} {s u : State}
    (handles : acquire es [] s = (ok, u)) :
    ∃ evs, s.withUnknownPorts.Emitted evs (initialised cfg u) := by
  obtain ⟨evs, hev, rfl⟩ := acquire_log_only handles
  have ha := s.withUnknownPorts.emitAll_emitted evs
  rw [emitAll_handles evs hev] at ha
  obtain ⟨fs, hf⟩ := initialised_emitted cfg { s with log := s.log ++ s.stamped evs }
  exact ⟨evs ++ fs, ha.trans hf rfl⟩

/-- A refused INIT's ACQUIREs and RELEASEs. -/
theorem acquire_emitted {es : List (Entry × Bool)} {ok : Bool} {s u : State}
    (handles : acquire es [] s = (ok, u)) : ∃ evs, s.Emitted evs u := by
  obtain ⟨evs, he, -⟩ := acquire_emits es [] s
  rw [handles] at he
  have hu : u = s.emitAll evs := he
  exact ⟨evs, hu ▸ s.emitAll_emitted evs⟩

theorem init_ne_tickOf (cfg : ConfigRecord) (k : Effect) : Instr.init cfg ≠ tickOf k := by cases k <;> nofun

/-- Settles O57: every instruction but INIT by `exec_emits`, INIT by whether it is rejected, refused a handle,
or configures the block. -/
theorem eventsAreAppended : Obligations.EventsAreAppended := by
  intro i s t hx
  by_cases hi : ∀ cfg, i ≠ .init cfg
  · obtain ⟨es, he, -⟩ := exec_emits hx hi
    exact ⟨es, fun _ => he, fun idle running => absurd running (exec_stays_idle hx hi idle)⟩
  · push Not at hi
    obtain ⟨cfg, rfl⟩ := hi
    obtain ⟨u, m, a⟩ := exec_moves hx
    have kept : ∀ {es}, s.Emitted es u → s.Emitted es t := fun he => he.congr_outputs (.refl s) a.sameOutputs
    have hl : t.lifecycle = u.lifecycle := a.lifecycle
    cases m with
    | keep => exact ⟨[], fun _ => kept (.refl s), fun idle running => absurd (hl.symm.trans running) idle⟩
    | initFailed idle _ handles =>
      obtain ⟨evs, he⟩ := acquire_emitted handles
      refine ⟨evs, fun _ => kept he, fun _ running => ?_⟩
      obtain ⟨_, -, rfl⟩ := acquire_log_only handles
      exact absurd (hl.symm.trans running) idle
    | init idle _ handles =>
      obtain ⟨evs, he⟩ := init_emitted (cfg := cfg) handles
      refine ⟨evs, fun h => ?_, fun _ _ => he.congr_outputs (.refl _) ?_⟩
      · exact (h.elim idle fun hn => hn hl).elim
      · exact ⟨a.kind, a.log, a.nowNs, a.generator, a.pin⟩
    | tickQuiet _ event => exact absurd event (init_ne_tickOf cfg _)
    | tick event => exact absurd event (init_ne_tickOf cfg _)
    | tickStop event => exact absurd event (init_ne_tickOf cfg _)

/-- An INIT that answers OK has accepted its record and committed it. -/
theorem init_ok {cfg : ConfigRecord} {s t : State} (hx : exec (.init cfg) s = .next t)
    (ok : t.response = some { status := .ok, result := 0 }) :
    validConfig cfg = true ∧ ∃ u, t.kind = (commitConfig cfg u).kind := by
  have rejected : ∀ {st : Status} {u : State}, st ≠ .ok → reject st u ≠ .next t := fun hst h => by
    rw [reject_next h] at ok
    exact hst (congrArg Response.status (Option.some.inj ok))
  simp only [exec, execInit] at hx
  split at hx
  · exact absurd hx (rejected (by decide))
  · split at hx
    · rename_i valid
      split at hx
      · exact absurd hx (rejected (by decide))
      · rename_i u _
        cases hx
        exact ⟨valid, u, initialised_kind cfg u⟩
    · exact absurd hx (rejected (by decide))

/-! ## Unassigned channels -/

/-- ChannelUpdate of an Unassigned channel does nothing (10_state.md rule R44). -/
theorem channelUpdate_unassigned {s : State} {c : Channel} (h : s.kind.get c = .unassigned) :
    channelUpdate c s = .ok s := by
  simp only [channelUpdate, driveChannel, h]

theorem brightOf_unassigned {s : State} {c : Channel} (h : s.kind.get c = .unassigned) : s.brightOf c = 0 := by
  rw [State.brightOf, h, hardwired_unassigned]

/-- Settles O58: the log's growth tells the events (`events_unique`), and they are assigned channels'. -/
theorem unassignedChannelIsSilent : Obligations.UnassignedChannelIsSilent := by
  refine ⟨fun s c h => channelUpdate_unassigned h, ?_, ?_⟩
  · intro i s t c es hi hx hk hlog
    refine ⟨fun ce hce hc => ?_, brightOf_unassigned (by rw [(exec_sameConfig hx hi).kind, hk])⟩
    obtain ⟨fs, he, assigned⟩ := exec_emits hx hi
    rw [he.events_unique hlog] at hce
    exact assigned ce hce (hc ▸ hk)
  · intro cfg s t hx ok c hk
    obtain ⟨valid, u, hu⟩ := init_ok hx ok
    by_contra hc
    exact commitConfig_colours valid u hc (hu ▸ hk)

end Sys2Proof.Machine
end

section
/-! Words carried as bytes: the transport of 20_memory.md rule R50 loses nothing of a list of words. -/

namespace Sys2Proof

/-- Byte j of a word is its bits 8j+7:8j. -/
theorem bytesOfWord_getElem? (w : Word) {j : Nat} (hj : j < 4) :
    (bytesOfWord w)[j]? = some (w.extractLsb' (8 * j) 8) :=
  match j, hj with
  | 0, _ | 1, _ | 2, _ | 3, _ => rfl

/-- Four bytes put together are a word in base 256, byte 0 the least significant. -/
theorem wordOfBytes_toNat (b0 b1 b2 b3 : Byte) :
    (wordOfBytes b0 b1 b2 b3).toNat =
      b3.toNat * 2 ^ 24 + b2.toNat * 2 ^ 16 + b1.toNat * 2 ^ 8 + b0.toNat := by
  have appended : (wordOfBytes b0 b1 b2 b3).toNat = (b3 ++ b2 ++ b1 ++ b0).toNat := rfl
  rw [appended]
  simp only [toNat_append_add]
  omega

/-- A word is its own four bytes put together. -/
theorem wordOfBytes_extract (w : Word) :
    wordOfBytes (w.extractLsb' 0 8) (w.extractLsb' 8 8) (w.extractLsb' 16 8) (w.extractLsb' 24 8) = w := by
  apply BitVec.eq_of_toNat_eq
  have := w.isLt
  simp only [wordOfBytes_toNat, BitVec.extractLsb'_toNat, Nat.shiftRight_eq_div_pow]
  omega

@[simp] theorem wordsOfBytes_bytesOfWord_append (w : Word) (bs : List Byte) :
    wordsOfBytes (bytesOfWord w ++ bs) = w :: wordsOfBytes bs :=
  congrArg (· :: wordsOfBytes bs) (wordOfBytes_extract w)

/-- A byte stream made of words is read back as those words. -/
@[simp] theorem wordsOfBytes_flatMap_bytesOfWord (ws : List Word) :
    wordsOfBytes (ws.flatMap bytesOfWord) = ws := by
  induction ws with
  | nil => rfl
  | cons w ws ih => rw [List.flatMap_cons, wordsOfBytes_bytesOfWord_append, ih]

/-- Settles O6: a byte's place is its power of 256 (`bytesOfWord_getElem?`), and the words are read back
(`wordsOfBytes_flatMap_bytesOfWord`). -/
theorem bytesAreLittleEndian : Obligations.BytesAreLittleEndian := by
  refine ⟨fun w j hj => ?_, fun ws cs => ?_⟩
  · rw [bytesOfWord_getElem? w hj, Option.map_some, BitVec.extractLsb'_toNat, Nat.shiftRight_eq_div_pow]
  · rw [decodeBytes, wordsOfBytes_flatMap_bytesOfWord]

end Sys2Proof
end

section
/-! The PulseTable's entries by place, and the reads that answer them (20_memory.md rules R46, R48). -/

namespace Sys2Proof.Machine

theorem pulseRead_eq_none_iff (i : Nat) : pulseRead i = none ↔ Config.pulseLen ≤ i := by
  rw [← Nat.not_lt]
  exact ⟨fun unread hi => Option.some_ne_none _ ((pulseRead_in_range hi).symm.trans unread),
    pulseRead_out_of_range⟩

/-- The constraint P4: the run of 254s stands before the tail, wherever its free place is. -/
theorem pulseEntry_peak {k : Nat} (hk : k < 3) : pulseEntry (Config.pulsePeakOffset.val + k + 7) = 254 := by
  have place := Config.pulsePeakOffset.isLt
  have beforeTail : ¬ 71 ≤ Config.pulsePeakOffset.val + k + 7 := by omega
  have inRun : Config.pulsePeakOffset.val ≤ Config.pulsePeakOffset.val + k ∧
      Config.pulsePeakOffset.val + k < Config.pulsePeakOffset.val + 3 := by omega
  rw [pulseEntry, if_neg beforeTail, if_pos inRun]

/-- Settles O59: P1 and P2 by the reads, P4 at the free place of the run (`pulseEntry_peak`), and P3 and P5
are entries the table fixes. -/
theorem pulseTableMeetsItsConstraints : Obligations.PulseTableMeetsItsConstraints := by
  refine ⟨pulseRead_eq_none_iff, fun j hj => ⟨pulseRead_in_range hj, pulseEntry_le j⟩, rfl, ?_, rfl⟩
  have place := Config.pulsePeakOffset.isLt
  exact ⟨Config.pulsePeakOffset.val + 7, by omega, pulseEntry_peak (k := 0) (by decide),
    pulseEntry_peak (k := 1) (by decide), pulseEntry_peak (k := 2) (by decide)⟩

end Sys2Proof.Machine
end

section
/-! The host's turn with a command on the ports (20_memory.md rule R52), and the step with nothing proposed
(log entry 2). -/

namespace Sys2Proof.Machine

/-- The host's turn runs the command its ports decode to. -/
theorem hostTurn_instr {s : State} {i : Instr} {ws : List Word} {cs : List ConfigRecord}
    (hd : decode s.cmdPort s.cfgPort = .instr i ws cs) (host : i.isEvent = false) :
    hostTurn s = exec i { s with cmdPort := ws, cfgPort := cs } := by
  simp only [hostTurn, hd, host, Bool.false_eq_true, if_false]

/-- Settles O7: FAULT lets the turn through, and the ports hold a host command (`hostTurn_instr`). -/
theorem stepRunsHostCommand : Obligations.StepRunsHostCommand := by
  intro s a rest i ws cs hf ha hd host
  simp only [step, ha]
  rw [unlessHalted_running hf]
  exact hostTurn_instr (s := { s with agenda := rest, oracle := a }) hd host

/-- Settles O18: without a fault the empty agenda's turn is the state itself. -/
theorem idleBlockWaits : Obligations.IdleBlockWaits := by
  intro s hf ha
  simp only [step, ha]
  exact unlessHalted_running hf _

end Sys2Proof.Machine
end

section
/-! The opcode map read both ways (30_encoding.md rules R64, R67, R69, R71, R72): no two rows share a word, an
instruction's first word is in the instruction's row, and decoding inverts encoding. -/

namespace Sys2Proof

/-! ## The rows of the opcode map -/

/-- Two rows that share a word agree on the bits both of them fix. -/
theorem OpcodeRow.patterns_agree {w : Word} {r r' : OpcodeRow} (h : r.holds w = true) (h' : r'.holds w = true) :
    r.pattern &&& r'.mask = r'.pattern &&& r.mask := by
  rw [holds, beq_iff_eq] at h h'
  rw [← h, ← h', BitVec.and_assoc, BitVec.and_assoc, BitVec.and_comm r.mask]

/-- Two different rows of the table differ on a bit both of them fix. -/
theorem opcodeRows_separated : ∀ r ∈ opcodeRows, ∀ r' ∈ opcodeRows,
    r.pattern &&& r'.mask = r'.pattern &&& r.mask → r = r' := by decide

/-- Settles O3: rows that share a word agree where both are fixed, and different rows of the table do not. -/
theorem opcodeRowsDoNotOverlap : Obligations.OpcodeRowsDoNotOverlap :=
  fun _ r r' hr hr' h h' => opcodeRows_separated r hr r' hr' (OpcodeRow.patterns_agree h h')

theorem rowOf_eq_none_iff {w : Word} : rowOf w = none ↔ ∀ r ∈ opcodeRows, r.holds w = false := by
  simp [rowOf]

theorem exists_row_of_rowOf {w : Word} {op : Op} (h : rowOf w = some op) :
    ∃ r ∈ opcodeRows, r.holds w = true ∧ r.op = op := by
  obtain ⟨r, found, hop⟩ := Option.map_eq_some_iff.mp h
  exact ⟨r, List.mem_of_find?_eq_some found, List.find?_some (p := fun r : OpcodeRow => r.holds w) found, hop⟩

/-- A row of the table that holds of a word is the word's row. -/
theorem rowOf_of_holds {r : OpcodeRow} {w : Word} (hr : r ∈ opcodeRows) (h : r.holds w = true) :
    rowOf w = some r.op := by
  cases row : rowOf w with
  | none => rw [rowOf_eq_none_iff.mp row r hr] at h; cases h
  | some op =>
    obtain ⟨r', hr', h', rfl⟩ := exists_row_of_rowOf row
    rw [opcodeRowsDoNotOverlap w r r' hr hr' h h']

/-! ## The command word of each row -/

/-- The command word of a row with the given fields, a field the row fixes set aside (30_encoding.md rule R64). -/
def Op.word (op : Op) (ch ef : BitVec 4) : Word :=
  match op with
  | .setb => commandWord 0x01 ch 0
  | .update => commandWord 0x02 0 0
  | .act => commandWord 0x03 ch ef
  | .deact => commandWord 0x04 0 ef
  | .shutdown => commandWord 0x05 0 0
  | .rdb => commandWord 0x06 ch 0
  | .rdfx => commandWord 0x07 0 0
  | .init => commandWord 0x10 0 0
  | .fire => commandWord 0x80 ch 0
  | .tickPulse => commandWord 0x81 0 0
  | .tickBlink => commandWord 0x81 0 1
  | .tickHeartbeat => commandWord 0x81 0 2
  | .tickRainbow => commandWord 0x81 0 3

/-- A row holds of its command word, whatever the fields it leaves free. -/
theorem holds_opWord {r : OpcodeRow} (hr : r ∈ opcodeRows) (ch ef : BitVec 4) :
    r.holds (r.op.word ch ef) = true := by
  simp only [opcodeRows, hostRows, eventRows, List.cons_append, List.nil_append, List.mem_cons,
    List.not_mem_nil, or_false] at hr
  rw [OpcodeRow.holds_iff]
  rcases hr with rfl | rfl | rfl | rfl | rfl | rfl | rfl | rfl | rfl | rfl | rfl | rfl | rfl <;>
  · simp only [Op.word, opField_commandWord, chField_commandWord, efField_commandWord, rsvField_commandWord]
    simp [opField, chField, efField, rsvField, and_f]

theorem rowOf_opWord (op : Op) (ch ef : BitVec 4) : rowOf (op.word ch ef) = some op := by
  obtain ⟨r, hr, rfl⟩ : ∃ r ∈ opcodeRows, r.op = op := by cases op <;> decide
  exact rowOf_of_holds hr (holds_opWord hr ch ef)

/-- The row of the opcode map an instruction is encoded in. -/
def Instr.op : Instr → Op
  | .setb _ _ => .setb
  | .update => .update
  | .act _ _ => .act
  | .deact _ => .deact
  | .shutdown => .shutdown
  | .rdb _ => .rdb
  | .rdfx => .rdfx
  | .init _ => .init
  | .fire _ => .fire
  | .tickPulse => .tickPulse
  | .tickBlink => .tickBlink
  | .tickHeartbeat => .tickHeartbeat
  | .tickRainbow => .tickRainbow

/-- The first word of an instruction's encoding is in the instruction's row. -/
theorem rowOf_encode (i : Instr) : (encode i).words.head?.bind rowOf = some i.op :=
  match i with
  | .setb ch _ => rowOf_opWord .setb ch 0
  | .update => rowOf_opWord .update 0 0
  | .act ch ef => rowOf_opWord .act ch ef
  | .deact ef => rowOf_opWord .deact 0 ef
  | .shutdown => rowOf_opWord .shutdown 0 0
  | .rdb ch => rowOf_opWord .rdb ch 0
  | .rdfx => rowOf_opWord .rdfx 0 0
  | .init _ => rowOf_opWord .init 0 0
  | .fire ch => rowOf_opWord .fire ch 0
  | .tickPulse => rowOf_opWord .tickPulse 0 0
  | .tickBlink => rowOf_opWord .tickBlink 0 0
  | .tickHeartbeat => rowOf_opWord .tickHeartbeat 0 0
  | .tickRainbow => rowOf_opWord .tickRainbow 0 0

/-! ## Decoding and encoding -/

/-- Settles O1: the first word's row is the instruction's (`rowOf_encode`), and the decoder's arm for that row
reads the fields, the operand word and the record back. -/
theorem decodeOfEncode : Obligations.DecodeOfEncode := by
  intro i ws cs
  have row := rowOf_encode i
  cases i <;>
  · simp only [encode, Instr.op, List.head?_cons, Option.bind_some] at row
    simp only [encode, decode, row, List.cons_append, List.nil_append, chField_commandWord, efField_commandWord]

/-- Settles O2: the word of a row is that row's command word (`rowOf_word`), and only SETB takes an operand
word and only INIT a record. -/
theorem decodingLosesNothing : Obligations.DecodingLosesNothing := by
  intro ws ws' cs cs' i h
  cases ws with
  | nil => cases h
  | cons w ws =>
    cases row : rowOf w with
    | none => simp [decode, row] at h
    | some op =>
      have word := rowOf_word row
      cases op with
      | setb =>
        cases ws with
        | nil => simp [decode, row] at h
        | cons v ws =>
          simp only [decode, row] at h
          cases h
          exact ⟨congrArg (· :: v :: _) word, rfl⟩
      | init =>
        cases cs with
        | nil => simp [decode, row] at h
        | cons cfg cs =>
          simp only [decode, row] at h
          cases h
          exact ⟨congrArg (· :: _) word, rfl⟩
      | update | act | deact | shutdown | rdb | rdfx | fire | tickPulse | tickBlink | tickHeartbeat
      | tickRainbow =>
        simp only [decode, row] at h
        cases h
        exact ⟨congrArg (· :: _) word, rfl⟩

/-- Settles O4: each word is the encoding of its instruction, so it decodes back (`decodeOfEncode`). -/
theorem knownWordsDecode : Obligations.KnownWordsDecode :=
  ⟨decodeOfEncode (.setb 3 100) [] [], decodeOfEncode .update [] [], decodeOfEncode (.act 3 0) [] [],
    decodeOfEncode (.deact 2) [] [], decodeOfEncode .shutdown [] [], decodeOfEncode (.rdb 1) [] [],
    decodeOfEncode .rdfx [] [], decodeOfEncode (.init []) [] [], decodeOfEncode (.fire 3) [] [],
    decodeOfEncode .tickPulse [] [], decodeOfEncode .tickBlink [] [], decodeOfEncode .tickHeartbeat [] [],
    decodeOfEncode .tickRainbow [] []⟩

/-! ## The assembler -/

/-- CH stands at bit 20 of a command word (30_encoding.md rule R60). -/
theorem commandWord_ch (op : BitVec 8) (ch : BitVec 4) :
    commandWord op ch 0 = commandWord op 0 0 ||| ch.setWidth 32 <<< 20 := by
  have place : ch.toNat * 2 ^ 20 < 2 ^ 24 := by have := ch.isLt; omega
  have field : (ch.setWidth 32 <<< 20 : Word).toNat = ch.toNat * 2 ^ 20 := by
    rw [BitVec.toNat_shiftLeft, BitVec.toNat_setWidth, Nat.shiftLeft_eq]; omega
  apply BitVec.eq_of_toNat_eq
  rw [BitVec.toNat_or, field, commandWord_toNat, commandWord_toNat]
  have disjoint := Nat.two_pow_add_eq_or_of_lt place op.toNat
  simpa [Nat.mul_comm] using disjoint

/-- Settles O5: a pseudo-instruction's command is its expansion's, and a channel operand stands at bit 20
(`commandWord_ch`). -/
theorem pseudoInstructionsExpand : Obligations.PseudoInstructionsExpand := by
  refine ⟨fun ch => ⟨rfl, rfl, ?_, ?_⟩,
    rfl, rfl, rfl, rfl, rfl, rfl, rfl, rfl, rfl, rfl, rfl, rfl, rfl, fun _ => rfl⟩
  · exact congrArg (fun w => some (Item.mk [w, 0] [])) (commandWord_ch 0x01 ch.field)
  · exact congrArg (fun w => some (Item.mk [w] [])) (commandWord_ch 0x03 ch.field)

/-! ## EVT words -/

/-- An EVT word decodes to its event, and takes nothing else off the ports (30_encoding.md rule R67). -/
theorem decode_of_eventRow {r : OpcodeRow} {w : Word} (hr : r ∈ eventRows) (h : r.holds w = true)
    (ws : List Word) (cs : List ConfigRecord) :
    ∃ i, i.isEvent = true ∧ decode (w :: ws) cs = .instr i ws cs := by
  have row : rowOf w = some r.op := rowOf_of_holds (List.mem_append_right _ hr) h
  simp only [eventRows, List.mem_cons, List.not_mem_nil, or_false] at hr
  rcases hr with rfl | rfl | rfl | rfl | rfl
  · exact ⟨.fire (chField w), rfl, by simp only [decode, row]⟩
  · exact ⟨.tickPulse, rfl, by simp only [decode, row]⟩
  · exact ⟨.tickBlink, rfl, by simp only [decode, row]⟩
  · exact ⟨.tickHeartbeat, rfl, by simp only [decode, row]⟩
  · exact ⟨.tickRainbow, rfl, by simp only [decode, row]⟩

/-- No word is both an EVT word and a host command's. -/
theorem not_hostRow_of_eventRow {r r' : OpcodeRow} {w : Word} (hr : r ∈ eventRows) (h : r.holds w = true)
    (hr' : r' ∈ hostRows) : r'.holds w = false := by
  by_contra held
  have same : r = r' := opcodeRowsDoNotOverlap w r r' (List.mem_append_right _ hr)
    (List.mem_append_left _ hr') h (Bool.eq_true_of_not_eq_false held)
  have disjoint : ∀ r ∈ eventRows, r ∉ hostRows := by decide
  exact disjoint r hr (same ▸ hr')

end Sys2Proof
end

section
/-! Words an agent may not send: the host's turn with a word in no host row, the timer unit's with the word of no
due timer (30_encoding.md rules R66, R67). -/

namespace Sys2Proof.Machine

/-! ## The host -/

/-- A word in no host row leaves the host's turn with ILLEGAL_COMMAND, and the word off the port. -/
theorem hostTurn_illegal {s : State} {w : Word} {ws : List Word} (port : s.cmdPort = w :: ws)
    (noRow : ∀ r ∈ hostRows, r.holds w = false) :
    hostTurn s = illegalCommand { s with cmdPort := ws } := by
  by_cases event : ∃ r ∈ eventRows, r.holds w = true
  · obtain ⟨r, hr, h⟩ := event
    obtain ⟨i, isEvent, hd⟩ := decode_of_eventRow hr h ws s.cfgPort
    simp only [hostTurn, port, hd, isEvent, if_true]
  · have none : rowOf w = none := rowOf_eq_none_iff.mpr fun r hr =>
      (List.mem_append.mp hr).elim (noRow r) fun he => by simpa using fun h => event ⟨r, he, h⟩
    simp only [hostTurn, port, decode, none]

/-- The step of a host whose word is in no host row (30_encoding.md rule R66). -/
theorem step_illegal {s : State} {a : Answers} {rest : List Action} {w : Word} {ws : List Word}
    (running : s.fault = .none) (turn : s.agenda = .host a :: rest) (port : s.cmdPort = w :: ws)
    (noRow : ∀ r ∈ hostRows, r.holds w = false) :
    step s = .next { s with
      agenda := rest, oracle := a, cmdPort := ws,
      response := some { status := .illegalCommand, result := 0 } } := by
  simp only [step, turn]
  rw [unlessHalted_running running]
  exact hostTurn_illegal (s := { s with agenda := rest, oracle := a }) port noRow

/-- Settles O9: a word in no host row is answered by `step_illegal`, what an instruction takes is its encoding
(`decodingLosesNothing`), in which SETB alone has a second word, and a word's row is the one that holds. -/
theorem illegalHostWord : Obligations.IllegalHostWord := by
  refine ⟨fun _ _ _ _ _ => step_illegal, fun w v ws ws' cs cs' i hd => ?_, fun w => ?_⟩
  · obtain ⟨taken, -⟩ := decodingLosesNothing _ _ _ _ _ hd
    cases i with
    | setb ch u =>
      simp only [encode, List.cons_append, List.nil_append, List.cons.injEq] at taken
      obtain ⟨-, rfl, rfl⟩ := taken
      exact .inl ⟨⟨ch, rfl⟩, rfl⟩
    | _ =>
      simp only [encode, List.cons_append, List.nil_append, List.cons.injEq] at taken
      exact .inr ⟨nofun, taken.2.symm⟩
  · cases row : rowOf w with
    | none => exact .inr ⟨rowOf_eq_none_iff.mp row, rfl⟩
    | some op =>
      obtain ⟨r, hr, h, rfl⟩ := exists_row_of_rowOf row
      exact .inl ⟨r, hr, h, rfl⟩

/-! ## The timer unit -/

theorem Channel.field_of_ofField {ch : BitVec 4} {c : Channel} (h : Channel.ofField ch = some c) :
    c.field = ch := by
  revert ch c; decide

/-- A timer's event is encoded as the timer's word. -/
theorem encode_of_eventTimer {i : Instr} {id : TimerId} (h : eventTimer i = some id) :
    (encode i).words = [id.word] := by
  cases i with
  | fire ch =>
    obtain ⟨c, hc, rfl⟩ := Option.map_eq_some_iff.mp h
    rw [encode, TimerId.word, Channel.field_of_ofField hc]
  | tickPulse | tickBlink | tickHeartbeat | tickRainbow => cases h; rfl
  | _ => cases h

/-- The timer unit's turn with the word of no due timer changes nothing. -/
theorem eventTurn_notDue {w : Word} {s : State} (h : ∀ id, s.due id = true → id.word ≠ w) :
    eventTurn w s = .next s := by
  unfold eventTurn
  split
  · rfl
  · rfl
  · rename_i i ws cs hd
    split
    · rfl
    · rename_i id hid
      obtain ⟨taken, -⟩ := decodingLosesNothing _ _ _ _ _ hd
      rw [encode_of_eventTimer hid] at taken
      have word : id.word = w := (List.cons.inj taken).1.symm
      exact if_neg fun due => h id due word

/-- Settles O10: an EVT word is in no host row, and a timer unit's word names a due timer or nothing
(`eventTurn_notDue`). -/
theorem onlyTheTimerUnitRaisesEvents : Obligations.OnlyTheTimerUnitRaisesEvents := by
  refine ⟨fun s a rest w ws running turn port ⟨r, hr, h⟩ =>
    step_illegal running turn port fun r' hr' => not_hostRow_of_eventRow hr h hr', ?_⟩
  intro s w rest running turn notDue
  have quiet : ∀ id, State.due { s with agenda := rest } id = true → id.word ≠ w := fun id due => by
    rw [State.due, Bool.and_eq_true, decide_eq_true_eq] at due
    exact notDue id due.1 due.2
  simp only [step, turn]
  rw [unlessHalted_running running, eventTurn_notDue quiet]

end Sys2Proof.Machine
end

section
/-! The duty-cycle mapper (40_channel_update.md rules R76, R81): its arithmetic stays within 32 bits, between LTH
and the period, and is what the update of a HardwarePWM channel programs. -/

namespace Sys2Proof.Machine

/-! ## The duty formula -/

/-- The level is scaled into the span above LTH, never past it. -/
theorem scaledLevel_le {maxb raw : Word} (hr : raw ≤ maxb) (span : Nat) :
    raw.toNat * span / maxb.toNat ≤ span :=
  Nat.div_le_of_le_mul (Nat.mul_le_mul_right span (BitVec.le_def.mp hr))

/-- The product of R76 fits in 64 bits, whatever its operands. -/
theorem dutyProduct_lt (lth period raw : Word) : raw.toNat * (period.toNat - lth.toNat) < 2 ^ 64 :=
  calc raw.toNat * (period.toNat - lth.toNat)
      < 2 ^ 32 * 2 ^ 32 := Nat.mul_lt_mul'' raw.isLt (by omega)
    _ = 2 ^ 64 := by norm_num

/-- The duty does not wrap: its low 32 bits are all of it. -/
theorem dutyWord_toNat {lth period maxb raw : Word} (hl : lth ≤ period) (hr : raw ≤ maxb) :
    (dutyWord lth period maxb raw).toNat =
      lth.toNat + raw.toNat * (period.toNat - lth.toNat) / maxb.toNat := by
  have span := scaledLevel_le hr (period.toNat - lth.toNat)
  have below := BitVec.le_def.mp hl
  rw [dutyWord, BitVec.toNat_ofNat, dutyNs, Nat.mod_eq_of_lt (by omega)]

theorem lth_le_dutyWord {lth period maxb raw : Word} (hl : lth ≤ period) (hr : raw ≤ maxb) :
    lth ≤ dutyWord lth period maxb raw := by
  rw [BitVec.le_def, dutyWord_toNat hl hr]
  exact Nat.le_add_right _ _

theorem dutyWord_le_period {lth period maxb raw : Word} (hl : lth ≤ period) (hr : raw ≤ maxb) :
    dutyWord lth period maxb raw ≤ period := by
  have span := scaledLevel_le hr (period.toNat - lth.toNat)
  have below := BitVec.le_def.mp hl
  rw [BitVec.le_def, dutyWord_toNat hl hr]
  omega

/-! ## The ends of the range -/

/-- Full on: the duty at MAXB is the period. -/
theorem dutyWord_maxb {lth period maxb : Word} (hl : lth ≤ period) (hm : maxb ≠ 0) :
    dutyWord lth period maxb maxb = period := by
  apply BitVec.eq_of_toNat_eq
  rw [dutyWord_toNat hl (BitVec.le_refl maxb), Nat.mul_div_cancel_left _ (word_toNat_pos hm),
    Nat.add_sub_cancel' (BitVec.le_def.mp hl)]

/-- Below MAXB the duty is less than the period, because the span above LTH is not empty. -/
theorem dutyWord_lt_period {lth period maxb raw : Word} (hl : lth < period) (hr : raw < maxb) :
    dutyWord lth period maxb raw < period := by
  have nonempty := BitVec.lt_def.mp hl
  have scaled : raw.toNat * (period.toNat - lth.toNat) / maxb.toNat < period.toNat - lth.toNat :=
    Nat.div_lt_of_lt_mul (Nat.mul_lt_mul_of_pos_right (BitVec.lt_def.mp hr) (by omega))
  rw [BitVec.lt_def, dutyWord_toNat (BitVec.le_of_lt hl) (BitVec.le_of_lt hr)]
  omega

/-- The duty exceeds LTH exactly when the division of R76 does not round its quotient down to 0. -/
theorem lth_lt_dutyWord_iff {lth period maxb raw : Word} (hl : lth ≤ period) (hm : maxb ≠ 0)
    (hr : raw ≤ maxb) :
    lth < dutyWord lth period maxb raw ↔ maxb.toNat ≤ raw.toNat * (period.toNat - lth.toNat) := by
  rw [BitVec.lt_def, dutyWord_toNat hl hr, Nat.lt_add_right_iff_pos, Nat.div_pos_iff]
  exact and_iff_right (word_toNat_pos hm)

/-- Without a levels table LTH is P / MAXB, which is at most P. -/
theorem period_udiv_le (period maxb : Word) : period / maxb ≤ period := by
  rw [BitVec.le_def, BitVec.toNat_udiv]
  exact Nat.div_le_self _ _

/-- P / MAXB is less than P once a brightness lies strictly between 0 and MAXB. -/
theorem period_udiv_lt {period maxb b : Word} (hp : period ≠ 0) (hb : b ≠ 0) (hm : b < maxb) :
    period / maxb < period := by
  have inside := BitVec.lt_def.mp hm
  have positive := word_toNat_pos hb
  rw [BitVec.lt_def, BitVec.toNat_udiv]
  exact Nat.div_lt_self (word_toNat_pos hp) (by omega)

/-- Settles O27: `dutyWord_maxb`, `dutyWord_lt_period` and `lth_lt_dutyWord_iff` at LTH = P / MAXB; the strict
property is decided at b = 1, the least of the products b · (P − LTH). -/
theorem dutyAtTheEnds : Obligations.DutyAtTheEnds := by
  intro period maxb hp hm
  have hl : period / maxb ≤ period := period_udiv_le period maxb
  have below : ∀ b : Word, b ≠ 0 → b < maxb → dutyWord (period / maxb) period maxb b < period :=
    fun b hb hlt => dutyWord_lt_period (period_udiv_lt hp hb hlt) hlt
  have exceeds : ∀ b : Word, b < maxb → (period / maxb < dutyWord (period / maxb) period maxb b ↔
      maxb.toNat ≤ b.toNat * (period.toNat - (period / maxb).toNat)) :=
    fun b hlt => lth_lt_dutyWord_iff hl hm (BitVec.le_of_lt hlt)
  refine ⟨dutyWord_maxb hl hm, fun b hb hlt => ⟨below b hb hlt, exceeds b hlt⟩, fun two => ⟨?_, ?_⟩⟩
  · intro strict
    have one : (1 : Word) < maxb := BitVec.lt_def.mpr two
    simpa using (exceeds 1 one).mp (strict 1 (by decide) one).1
  · intro span b hb hlt
    have grows := Nat.le_mul_of_pos_left (period.toNat - (period / maxb).toNat) (word_toNat_pos hb)
    exact ⟨(exceeds b hlt).mpr (span.trans grows), below b hb hlt⟩

/-! ## The port -/

/-- A HardwarePWM channel that is not off, with its table read in range, is driven with the duty of R76 and the
period. -/
theorem driveChannel_hard {s : State} {c : Channel} {b raw : Word} (hk : s.kind.get c = .hardwarePWM)
    (hb : b ≠ 0) (hr : rawOf c b s = some raw) :
    driveChannel c b s = .ok (s.emitAll
      [(c, .pwmSet (dutyWord (s.lthOf c) s.periodNs (s.maxbOf c) raw) s.periodNs), (c, .pwmEnable),
        (c, .notifyAfter b)]) := by
  simp only [driveChannel, hk, if_neg hb, hr]

/-- Settles O26: the bounds of the duty formula, and the generator after the three events of
`driveChannel_hard`. -/
theorem dutyStaysInBounds : Obligations.DutyStaysInBounds := by
  refine ⟨fun lth period maxb raw hl _ hr => ⟨dutyProduct_lt lth period raw, scaledLevel_le hr _,
    dutyWord_toNat hl hr, lth_le_dutyWord hl hr, dutyWord_le_period hl hr⟩, ?_⟩
  intro s c b raw hk hb hr
  refine ⟨_, driveChannel_hard hk hb hr, ?_, ?_⟩ <;> simp [generatorAfter]

end Sys2Proof.Machine
end

section
/-! The soft-PWM scheduler (41_softpwm.md rules R86, R88): what one firing of a SoftwarePWM channel leaves, case by
case, and two firings in a row. -/

namespace Sys2Proof.Machine

/-! ## One firing -/

/-- What a firing of channel c that drives its pin leaves: the level, the pin, the timer and the one event. -/
def State.afterFiring (c : Channel) (l : Level) (timer : Timer) (s : State) : State :=
  { s with
    swt := s.swt.set c timer,
    swLevel := s.swLevel.set c l,
    pin := s.pin.set c (some l),
    log := s.log ++ s.stamped [(c, .gpioWrite l)] }

@[simp] theorem State.afterFiring_swt_same (c : Channel) (l : Level) (timer : Timer) (s : State) :
    (s.afterFiring c l timer).swt.get c = timer := Bank.get_set_same _ _ _
@[simp] theorem State.afterFiring_pin_same (c : Channel) (l : Level) (timer : Timer) (s : State) :
    (s.afterFiring c l timer).pin.get c = some l := Bank.get_set_same _ _ _

/-- A GPIO_WRITE reaches the log and the pin and leaves the generator alone. -/
theorem emit_gpioWrite (c : Channel) (l : Level) (s : State) :
    s.emit c (.gpioWrite l) =
      { s with log := s.log ++ s.stamped [(c, .gpioWrite l)], pin := s.pin.set c (some l) } := by
  simp only [State.emit, generatorAfter, pinAfter, Bank.set_get, State.stamped_cons, State.stamped_nil]

/-- FIRE of a SoftwarePWM channel is a firing of that channel. -/
theorem exec_fire_soft {s : State} {c : Channel} (soft : s.kind.get c = .softwarePWM) :
    exec (.fire c.field) s = endEvent (.fire c.field) (fireChannel c s) := by
  simp only [exec, execFire, fireBody, Channel.ofField_field, soft]

/-- A steady level disarms the timer (41_softpwm.md rule R86, steps 1 and 2). -/
theorem steady_disarmSwt (c : Channel) (l : Level) (s : State) :
    steady c l (s.disarmSwt c) = .ok (s.afterFiring c l (s.swt.get c).disarm) := by
  rw [steady, emit_gpioWrite]
  rfl

theorem fireChannel_full {s : State} {c : Channel} (full : s.maxbOf c ≤ s.brightOf c) :
    fireChannel c s = .ok (s.afterFiring c .high (s.swt.get c).disarm) :=
  (if_pos full).trans (steady_disarmSwt c .high s)

theorem fireChannel_off {s : State} {c : Channel} (below : s.brightOf c < s.maxbOf c)
    (off : s.brightOf c = 0) : fireChannel c s = .ok (s.afterFiring c .low (s.swt.get c).disarm) :=
  (if_neg (BitVec.not_le.mpr below)).trans ((if_pos off).trans (steady_disarmSwt c .low s))

/-- Strictly between 0 and MAXB a firing toggles (41_softpwm.md rule R86, step 3). -/
theorem fireChannel_between {s : State} {c : Channel} (below : s.brightOf c < s.maxbOf c)
    (on : s.brightOf c ≠ 0) : fireChannel c s = toggle c (s.disarmSwt c) :=
  (if_neg (BitVec.not_le.mpr below)).trans (if_neg on)

theorem fireChannel_toggle {s : State} {c : Channel} {d : Nat} (below : s.brightOf c < s.maxbOf c)
    (on : s.brightOf c ≠ 0)
    (delay : toggleDelay (s.swLevel.get c).flip (pulseNs c s) s.periodNs.toNat = some d) :
    fireChannel c s = .ok (s.afterFiring c (s.swLevel.get c).flip (Timer.arm (s.deadlineIn d))) := by
  rw [fireChannel_between below on, toggle_ok (s := s.disarmSwt c) delay, emit_gpioWrite]
  simp only [State.armSwt, State.setSwLevel, State.disarmSwt, Bank.set_set]
  rfl

/-- A toggle whose interval is not positive stops after the flip (41_softpwm.md rule R86, step 3). -/
theorem toggle_stop {c : Channel} {s : State}
    (delay : toggleDelay (s.swLevel.get c).flip (pulseNs c s) s.periodNs.toNat = none) :
    toggle c s = .stop .intervalNonpositive (s.setSwLevel c (s.swLevel.get c).flip) := by
  have pulse : pulseNs c (s.setSwLevel c (s.swLevel.get c).flip) = pulseNs c s := rfl
  simp only [toggle, pulse, State.setSwLevel_periodNs, delay]

theorem fireChannel_stop {s : State} {c : Channel} (below : s.brightOf c < s.maxbOf c)
    (on : s.brightOf c ≠ 0)
    (delay : toggleDelay (s.swLevel.get c).flip (pulseNs c s) s.periodNs.toNat = none) :
    fireChannel c s =
      .stop .intervalNonpositive ((s.disarmSwt c).setSwLevel c (s.swLevel.get c).flip) :=
  (fireChannel_between below on).trans (toggle_stop (s := s.disarmSwt c) delay)

/-- From Low the next interval is the High one, b · LTH (41_softpwm.md rules R86, R87). -/
theorem exec_fire_low {s : State} {c : Channel} (soft : s.kind.get c = .softwarePWM)
    (below : s.brightOf c < s.maxbOf c) (on : s.brightOf c ≠ 0) (low : s.swLevel.get c = .low)
    (positive : pulseNs c s ≠ 0) :
    exec (.fire c.field) s =
      .next (s.afterFiring c .high (Timer.arm (s.deadlineIn (pulseNs c s)))) := by
  have delay : toggleDelay (s.swLevel.get c).flip (pulseNs c s) s.periodNs.toNat = some (pulseNs c s) := by
    rw [low]
    exact if_neg positive
  rw [exec_fire_soft soft, fireChannel_toggle below on delay, low]
  rfl

/-- From High the next interval is the Low one, PERIOD_NS − b · LTH (41_softpwm.md rules R86, R87). -/
theorem exec_fire_high {s : State} {c : Channel} (soft : s.kind.get c = .softwarePWM)
    (below : s.brightOf c < s.maxbOf c) (on : s.brightOf c ≠ 0) (high : s.swLevel.get c = .high)
    (short : pulseNs c s < s.periodNs.toNat) :
    exec (.fire c.field) s =
      .next (s.afterFiring c .low (Timer.arm (s.deadlineIn (s.periodNs.toNat - pulseNs c s)))) := by
  have delay : toggleDelay (s.swLevel.get c).flip (pulseNs c s) s.periodNs.toNat =
      some (s.periodNs.toNat - pulseNs c s) := by
    rw [high]
    exact if_neg (Nat.not_le.mpr short)
  rw [exec_fire_soft soft, fireChannel_toggle below on delay, high]
  rfl

/-- No interval after the flip: b · LTH is 0 from Low, or takes the whole period from High. -/
theorem toggleDelay_flip_none {l : Level} {pulse period : Nat} (low : l = .low → pulse = 0)
    (high : l = .high → period ≤ pulse) : toggleDelay l.flip pulse period = none := by
  cases l with
  | low => exact if_pos (low rfl)
  | high => exact if_pos (high rfl)

/-- Settles O48, by the firing's equation in each of the five cases. -/
theorem fireFollowsItsRule : Obligations.FireFollowsItsRule := by
  intro s c soft
  refine ⟨fun full => ?_, fun below off => ?_, exec_fire_low soft, exec_fire_high soft,
    fun below on low high => ?_⟩
  · rw [exec_fire_soft soft, fireChannel_full full]
    rfl
  · rw [exec_fire_soft soft, fireChannel_off below off]
    rfl
  · rw [exec_fire_soft soft, fireChannel_stop below on (toggleDelay_flip_none low high)]
    rfl

/-! ## Two firings in a row -/

/-- With LTH = PERIOD / MAXB, the High interval of a level below MAXB is shorter than the period (41_softpwm.md
rule R87). -/
theorem pulse_lt_period {b maxb period : Word} (below : b < maxb) (positive : period / maxb ≠ 0) :
    b.toNat * (period / maxb).toNat < period.toNat :=
  calc b.toNat * (period / maxb).toNat
      < maxb.toNat * (period / maxb).toNat :=
        Nat.mul_lt_mul_of_pos_right (BitVec.lt_def.mp below) (word_toNat_pos positive)
    _ = maxb.toNat * (period.toNat / maxb.toNat) := by rw [BitVec.toNat_udiv]
    _ ≤ period.toNat := Nat.mul_div_le _ _

/-- A deadline is NOW_NS plus the interval modulo 2^64 (10_state.md rule R33). -/
theorem State.deadlineIn_eq (s : State) (d : Nat) : s.deadlineIn d = s.nowNs + BitVec.ofNat 64 d := by
  rw [State.deadlineIn, BitVec.ofNat_add, BitVec.ofNat_toNat, BitVec.setWidth_eq]

/-- A firing at time `now`, the brightness being what it was at the firing to High. -/
theorem exec_fire_afterFiring_high {s : State} {c : Channel} (soft : s.kind.get c = .softwarePWM)
    (below : s.brightOf c < s.maxbOf c) (on : s.brightOf c ≠ 0)
    (short : pulseNs c s < s.periodNs.toNat) (timer : Timer) (now : Time) :
    exec (.fire c.field) { s.afterFiring c .high timer with nowNs := now } =
      .next (State.afterFiring c .low
        (Timer.arm (now + BitVec.ofNat 64 (s.periodNs.toNat - pulseNs c s)))
        { s.afterFiring c .high timer with nowNs := now }) := by
  have high : (s.afterFiring c .high timer).swLevel.get c = .high := Bank.get_set_same _ _ _
  rw [exec_fire_high (s := { s.afterFiring c .high timer with nowNs := now }) soft below on high short,
    State.deadlineIn_eq]
  rfl

/-- An interval and the rest of the period after it end one period later, also where the sum wraps. -/
theorem time_add_rest (now : Time) {period : Word} {d : Nat} (h : d ≤ period.toNat) :
    now + BitVec.ofNat 64 d + BitVec.ofNat 64 (period.toNat - d) = now + period.setWidth 64 := by
  rw [BitVec.add_assoc, ← BitVec.ofNat_add, Nat.add_sub_cancel' h, BitVec.ofNat_toNat]

/-- Settles O50: the firing from Low (`exec_fire_low`) and, at its deadline, the firing from High
(`exec_fire_afterFiring_high`); the two intervals add up by `time_add_rest`. -/
theorem highPlusLowIsThePeriod : Obligations.HighPlusLowIsThePeriod := by
  intro s c soft low on below shortest positive
  have pulse : pulseNs c s ≠ 0 := (Nat.mul_pos (word_toNat_pos on) (word_toNat_pos positive)).ne'
  have short : pulseNs c s < s.periodNs.toNat := by
    rw [pulseNs, shortest]
    exact pulse_lt_period below (shortest ▸ positive)
  refine ⟨_, _, exec_fire_low soft below on low pulse, s.afterFiring_pin_same c _ _, ?_,
    exec_fire_afterFiring_high soft below on short _ _, State.afterFiring_pin_same c _ _ _, ?_⟩
  · rw [State.afterFiring_swt_same]
    exact s.deadlineIn_eq _
  · simp only [State.afterFiring_swt_same, Timer.arm, State.deadlineIn_eq, time_add_rest s.nowNs short.le]

end Sys2Proof.Machine
end

section
/-! ACT and DEACT (42_effects.md rules R91 to R93, R101): the command's equation in each case, and what a
deactivation leaves. -/

namespace Sys2Proof.Machine

/-! ## The bits of ACTIVE_MASK -/

theorem maskHas_maskClear_same (m : BitVec 4) (k : Effect) : maskHas (maskClear m k) k = false := by
  cases k <;> revert m <;> decide

theorem maskHas_maskClear_ne (m : BitVec 4) {k l : Effect} (h : l ≠ k) :
    maskHas (maskClear m k) l = maskHas m l := by
  revert h
  cases k <;> cases l <;> revert m <;> decide

/-! ## DEACT -/

/-- DEACT of an effect, once the block runs (42_effects.md rule R93). -/
theorem exec_deact_running {s : State} (running : s.lifecycle = .running) (k : Effect) :
    exec (.deact k.field) s =
      endCommand (.deact k.field) (if maskHas s.activeMask k then deactivate k s else .ok s) := by
  simp only [exec, execDeact, running, ne_eq, not_true_eq_false, if_false, Effect.ofField_field]

theorem exec_deact_active {s : State} {k : Effect} (running : s.lifecycle = .running)
    (active : maskHas s.activeMask k = true) (covers : s.TablesCover) :
    exec (.deact k.field) s = .next ((refreshed (restoredFrom k s)).respond .ok 0) := by
  rw [exec_deact_running running, if_pos active, deactivate_covered k covers, endCommand_ok]

/-- DEACT of an active effect leaves the saved colour, also where a table read faults its refresh. -/
theorem exec_deact_brightOf {s t : State} {k : Effect} (running : s.lifecycle = .running)
    (active : maskHas s.activeMask k = true) (hx : exec (.deact k.field) s = .next t) (c : Channel) :
    t.brightOf c = hardwired (s.kind.get c) (s.savedColor.get c) := by
  rw [exec_deact_running running, if_pos active] at hx
  have answered := endCommand_answered hx
  have refresh := deactivate_refreshed k s
  have same : t.brightOf c = (deactivate k s).state.brightOf c := by
    rw [State.brightOf, answered.kind, answered.bright, State.brightOf]
  rw [same, refresh.brightOf]
  exact brightOf_restoreColor _ c

/-- What Deactivate(k) leaves when its refresh completes (42_effects.md rule R92). -/
structure Deactivated (k : Effect) (s t : State) : Prop where
  kind       : t.kind = s.kind
  lifecycle  : t.lifecycle = s.lifecycle
  bright     : ∀ c, t.brightOf c = hardwired (s.kind.get c) (s.savedColor.get c)
  activeMask : t.activeMask = maskClear s.activeMask k
  fxt        : t.fxt = s.fxt
  nowNs      : t.nowNs = s.nowNs
  emitted    : s.Emitted s.restoreColor.refreshEvents t
  timers     : ∀ c, t.swt.get c = s.softTimerAfter c
  regs       : ∀ r, r ∉ allBrightRegs ++ [Reg.activeMask] ++ allSwtRegs ++ allGenRegs → t.reg r = s.reg r
  faultBy    : t.faultBy = s.faultBy
  inputs     : t.inputs = s.inputs

/-- Before its refresh a deactivation has touched BRIGHT and ACTIVE_MASK only. -/
theorem restoredFrom_reg (k : Effect) (s : State) {r : Reg} (h : r ∉ allBrightRegs ++ [Reg.activeMask]) :
    (restoredFrom k s).reg r = s.reg r := by
  cases r with
  | bright c => exact absurd (by cases c <;> decide) h
  | activeMask => exact absurd (by decide) h
  | _ => rfl

theorem refreshed_restoredFrom (k : Effect) {s : State} (covers : s.TablesCover) :
    Deactivated k s (refreshed (restoredFrom k s)) := by
  have refresh := refreshed_refreshed (s := restoredFrom k s) (covers.congr rfl rfl rfl)
  have events : (restoredFrom k s).refreshEvents = s.restoreColor.refreshEvents :=
    refreshEvents_congr rfl rfl rfl rfl rfl fun _ => rfl
  exact {
    kind := refresh.kind
    lifecycle := refresh.lifecycle
    bright := fun c => (refresh.brightOf c).trans (brightOf_restoreColor _ c)
    activeMask := refresh.activeMask
    fxt := refresh.fxt
    nowNs := refresh.nowNs
    emitted := events ▸ (refreshed_emitted (restoredFrom k s)).congr rfl rfl rfl rfl rfl rfl rfl
    timers := fun c => by
      rw [refreshed_swt, Bank.get_ofFn]
      exact softTimerAfter_congr rfl rfl rfl c
    regs := fun r hr => by
      simp only [List.append_assoc, List.mem_append, not_or] at hr
      obtain ⟨bright, mask, ports⟩ := hr
      rw [refresh.reg r (by simpa only [List.mem_append, not_or] using ports),
        restoredFrom_reg k s (by simpa only [List.mem_append, not_or] using ⟨bright, mask⟩)]
    faultBy := refresh.faultBy
    inputs := refresh.inputs }

/-- Settles O36: with the bit clear DEACT has nothing to deactivate. -/
theorem deactOfInactive : Obligations.DeactOfInactive := by
  intro s k running inactive
  rw [exec_deact_running running, inactive]
  rfl

/-- Settles O35: the refresh of DEACT completes (`exec_deact_active`) and leaves what `Deactivated` says. -/
theorem deactRestores : Obligations.DeactRestores := by
  intro s k running active covers
  have deact := exec_deact_active running active covers
  have d := refreshed_restoredFrom k covers
  generalize refreshed (restoredFrom k s) = u at deact d
  refine ⟨_, deact, rfl, ?_, fun l hl => ?_, d.bright,
    ⟨d.emitted.log, d.emitted.generators, d.emitted.pins⟩, d.timers,
    fun r hr => (respond_reg _ _ _ r).trans (d.regs r hr), d.faultBy, d.inputs⟩
  · rw [State.respond_activeMask, d.activeMask, maskHas_maskClear_same]
  · rw [State.respond_activeMask, d.activeMask, maskHas_maskClear_ne _ hl]

/-! ## ACT -/

/-- The value ACT writes to PULSE_CH: CH's channel for Pulse, invalid for the other effects (42_effects.md
rule R91). -/
def actPulseCh (k : Effect) (ch : BitVec 4) : Option Channel :=
  if k = .pulse then Channel.ofField ch else none

theorem actTarget_eq {k : Effect} {ch : BitVec 4} {s : State}
    (aim : k = .pulse → ∃ c, Channel.ofField ch = some c ∧ s.kind.get c ≠ .unassigned) :
    actTarget k ch s = some (actPulseCh k ch) := by
  cases k with
  | pulse =>
    obtain ⟨c, hc, assigned⟩ := aim rfl
    simp only [actTarget, actPulseCh, hc, if_neg assigned, if_true]
  | blink | heartbeat | rainbow => rfl

/-- ACT of an effect, once the block runs and Pulse has an assigned channel (42_effects.md rule R91). -/
theorem exec_act_running {s : State} {ch : BitVec 4} {k : Effect} (running : s.lifecycle = .running)
    (aim : k = .pulse → ∃ c, Channel.ofField ch = some c ∧ s.kind.get c ≠ .unassigned) :
    exec (.act ch k.field) s =
      endCommand (.act ch k.field)
        ((deactivateActive s).andThen fun t => .ok (activate k (actPulseCh k ch) t)) := by
  simp only [exec, execAct, running, ne_eq, not_true_eq_false, if_false, Effect.ofField_field,
    actTarget_eq aim]

theorem deactivateActive_idle {s : State} (idle : s.activeMask = 0) : deactivateActive s = .ok s :=
  if_pos idle

theorem deactivateActive_active {s : State} {a : Effect} (active : s.activeMask = effectBit a) :
    deactivateActive s = deactivate a s := by
  simp only [deactivateActive, active, if_neg (effectBit_ne_zero a), activeEffect_effectBit]

theorem exec_act_idle {s : State} {ch : BitVec 4} {k : Effect} (running : s.lifecycle = .running)
    (idle : s.activeMask = 0)
    (aim : k = .pulse → ∃ c, Channel.ofField ch = some c ∧ s.kind.get c ≠ .unassigned) :
    exec (.act ch k.field) s = .next ((activate k (actPulseCh k ch) s).respond .ok 0) := by
  rw [exec_act_running running aim, deactivateActive_idle idle, Proc.andThen_ok, endCommand_ok]

theorem exec_act_active {s : State} {ch : BitVec 4} {k a : Effect} (running : s.lifecycle = .running)
    (active : s.activeMask = effectBit a) (covers : s.TablesCover)
    (aim : k = .pulse → ∃ c, Channel.ofField ch = some c ∧ s.kind.get c ≠ .unassigned) :
    exec (.act ch k.field) s =
      .next ((activate k (actPulseCh k ch) (refreshed (restoredFrom a s))).respond .ok 0) := by
  rw [exec_act_running running aim, deactivateActive_active active, deactivate_covered a covers,
    Proc.andThen_ok, endCommand_ok]

/-- The registers the rest of ACT writes (42_effects.md rule R91). -/
theorem activate_reg (k : Effect) (target : Option Channel) (s : State) {r : Reg}
    (h : r ∉ allChannels.map Reg.savedColor ++
      [Reg.activeMask, .fxStep, .phase, .pulseCh, .fxtArmed k, .fxtDeadline k]) :
    (activate k target s).reg r = s.reg r := by
  simp only [List.mem_append, List.mem_cons, List.not_mem_nil, or_false, not_or] at h
  obtain ⟨saved, mask, step, phase, pulse, armed, deadline⟩ := h
  rw [activate, armFxt_reg _ _ _ _ armed deadline]
  cases r with
  | savedColor c => exact absurd (by cases c <;> decide) saved
  | activeMask => exact absurd rfl mask
  | fxStep => exact absurd rfl step
  | phase => exact absurd rfl phase
  | pulseCh => exact absurd rfl pulse
  | _ => rfl

/-- Settles O33: ACT has nothing to deactivate (`exec_act_idle`), and the first interval is the effect's. -/
theorem actFromIdle : Obligations.ActFromIdle := by
  intro s ch k running idle aim
  rw [exec_act_idle running idle aim]
  cases k <;> rfl

/-- Settles O34: the state `activate` starts from is a deactivation's (`refreshed_restoredFrom`), whose
brightness is the saved colour and therefore the snapshot. -/
theorem actReplacesActive : Obligations.ActReplacesActive := by
  intro s ch k a running active covers aim
  have act := exec_act_active running active covers aim
  have d := refreshed_restoredFrom a covers
  generalize refreshed (restoredFrom a s) = u at act d
  refine ⟨_, act, rfl, d.bright, fun c => ?_, rfl, rfl, rfl, rfl,
    fun l hl => ?_, ?_, ⟨d.emitted.log, d.emitted.generators, d.emitted.pins⟩, d.timers, fun r hr => ?_,
    d.faultBy, d.inputs⟩
  · exact (Bank.get_ofFn _ c).trans (d.bright c)
  · exact (FxBank.get_set_ne _ _ hl).trans (congrArg (·.get l) d.fxt)
  · refine (FxBank.get_set_same _ _ _).trans ?_
    rw [State.deadlineIn, d.nowNs]
    cases k <;> rfl
  · simp only [List.append_assoc, List.mem_append, not_or] at hr
    obtain ⟨bright, saved, written, swt, gen⟩ := hr
    have mask : r ∉ [Reg.activeMask] := fun h => written (List.mem_cons.mpr (.inl (List.mem_singleton.mp h)))
    rw [respond_reg, activate_reg _ _ _ (by simpa only [List.mem_append, not_or] using ⟨saved, written⟩),
      d.regs r (by simpa only [List.mem_append, not_or] using ⟨⟨⟨bright, mask⟩, swt⟩, gen⟩)]

end Sys2Proof.Machine
end

section
/-! The four ticks (42_effects.md rules R95 to R100): one equation and one frame for all of them, then what each
body writes. -/

namespace Sys2Proof.Machine

/-! ## The frame of every tick -/

/-- The body of an effect's tick (42_effects.md rules R96, R97, R98, R100). -/
def tickBody : Effect → State → Proc
  | .pulse => pulseBody
  | .blink => blinkBody
  | .heartbeat => heartbeatBody
  | .rainbow => rainbowBody

/-- The interval after which an effect's tick is re-armed (42_effects.md rules R96, R97, R98, R100). -/
def tickInterval (s : State) : Effect → Nat
  | .pulse => Config.pulseTickNs
  | .blink => Config.blinkTickNs
  | .heartbeat => heartbeatInterval s.fxStep
  | .rainbow => Config.pulseTickNs

theorem exec_tickOf (k : Effect) (s : State) :
    exec (tickOf k) s = endEvent (tickOf k) (tick k (tickInterval s k) (tickBody k) s) := by
  cases k <;> rfl

theorem tickBody_moves {k : Effect} {s b : State} (h : tickBody k s = .ok b) : BodyMoves k s b := by
  cases k with
  | pulse => exact pulseBody_ok h
  | blink =>
    cases h
    exact .blink s
  | heartbeat =>
    cases h
    exact .heartbeat s
  | rainbow => exact .rainbow h

/-- The tick of an active effect, when its body answers. -/
theorem exec_tickOf_active {k : Effect} {s b : State} (active : maskHas s.activeMask k = true)
    (body : tickBody k (s.disarmFxt k) = .ok b) (covers : s.TablesCover) :
    ∃ t, exec (tickOf k) s = .next t ∧ Ticked k (tickInterval s k) b s t := by
  obtain ⟨t, ht, ticked⟩ := tick_ticked active body (tickBody_moves body) covers
  exact ⟨t, by rw [exec_tickOf, ht, endEvent_ok], ticked⟩

/-- Settles O37: with the bit clear a tick is its disarm (`tick_inactive`). -/
theorem inactiveTickCancelsItself : Obligations.InactiveTickCancelsItself := by
  intro s k inactive
  rw [exec_tickOf, tick_inactive inactive, endEvent_ok]
  rfl

section Ticked
variable {k : Effect} {d : Nat} {b s t : State} (h : Ticked k d b s t)
include h

theorem Ticked.timer : t.fxt.get k = { armed := true, deadline := s.deadlineIn d } := by
  rw [h.fxt, FxBank.get_set_same]

theorem Ticked.maxbOf (c : Channel) : t.maxbOf c = s.maxbOf c := by
  rw [State.maxbOf, State.maxbOf, h.kind, h.maxb]

/-- The tick's events are one refresh of any state with the configuration and the brightness it leaves. -/
theorem Ticked.emitted_as {u : State} (config : SameConfig s u) (bright : ∀ c, u.brightOf c = t.brightOf c) :
    s.Emitted u.refreshEvents t := by
  have stored : ∀ c, (s.setAllBright b.brightOf).brightOf c = u.brightOf c := fun c => by
    rw [bright, brightOf_setAllBright, ← h.bright, ← h.kind]
    exact hardwired_hardwired _ _
  rw [refreshEvents_congr (s := s.setAllBright b.brightOf) config.kind config.maxb config.lth config.levels
    config.periodNs fun c => (stored c).symm]
  exact h.emitted

theorem Ticked.emitted_setAllBright : s.Emitted (s.setAllBright t.brightOf).refreshEvents t :=
  h.emitted_as ⟨rfl, rfl, rfl, rfl, rfl⟩ fun c => by
    rw [brightOf_setAllBright, ← h.kind]
    exact hardwired_hardwired _ _

/-- A tick touches PHASE or a brightness only where its body does, and else STEP, its own timer, the soft-PWM
timers and the generators. -/
theorem Ticked.reg {r : Reg} (phase : r = .phase → b.phase = s.phase)
    (bright : ∀ c, r = .bright c → b.brightOf c = s.brightOf c)
    (hr : r ∉ [Reg.fxStep, .fxtArmed k, .fxtDeadline k] ++ allSwtRegs ++ allGenRegs) : t.reg r = s.reg r := by
  by_cases hp : r = .phase
  · subst hp
    simp only [State.reg, h.phase, phase rfl]
  · by_cases hb : r ∈ allBrightRegs
    · obtain ⟨c, -, rfl⟩ := List.mem_map.mp hb
      simp only [State.reg, h.bright, bright c rfl]
    · refine h.regs r ?_
      simp only [List.mem_append, List.mem_cons, List.not_mem_nil, or_false, not_or] at hr ⊢
      obtain ⟨⟨⟨step, armed, deadline⟩, swt⟩, gen⟩ := hr
      exact ⟨⟨⟨⟨step, hp, armed, deadline⟩, hb⟩, swt⟩, gen⟩

end Ticked

/-- Writing a value within MAXB stores it, an Unassigned channel's MAXB being 0 (10_state.md rule R43). -/
theorem hardwired_of_le_maxbOf {s : State} {c : Channel} {v : Word} (h : v ≤ s.maxbOf c) :
    hardwired (s.kind.get c) v = v := by
  by_cases hk : s.kind.get c = .unassigned
  · rw [State.maxbOf, hk] at h
    rw [hk, hardwired_unassigned, BitVec.le_zero_iff.mp h]
    rfl
  · exact hardwired_of_assigned hk v

/-! ## Pulse -/

/-- Pulse's body with a target and STEP in the table (42_effects.md rule R96). -/
def pulseShown (c : Channel) (s : State) : State :=
  { s.setBright c (clampTo (s.maxbOf c) (BitVec.ofNat 32 (pulseEntry s.fxStep.toNat))) with
    fxStep := if s.fxStep = 74 then 0 else s.fxStep + 1 }

theorem pulseBody_target {s : State} {c : Channel} (target : s.pulseCh = some c)
    (range : s.fxStep.toNat ≤ 74) : pulseBody s = .ok (pulseShown c s) := by
  have entry := pulseRead_in_range (i := s.fxStep.toNat) (Nat.lt_succ_of_le range)
  simp only [pulseBody, target, entry]
  rfl

/-- The target shows the table's entry, clamped to MAXB. -/
theorem pulseShown_target (c : Channel) (s : State) :
    ((pulseShown c s).brightOf c).toNat = min (pulseEntry s.fxStep.toNat) (s.maxbOf c).toNat := by
  have entry := pulseEntry_le s.fxStep.toNat
  have shown : (pulseShown c s).brightOf c =
      hardwired (s.kind.get c) (clampTo (s.maxbOf c) (BitVec.ofNat 32 (pulseEntry s.fxStep.toNat))) :=
    brightOf_setBright_same c _ s
  rw [shown, hardwired_of_le_maxbOf (clampTo_le _ _), clampTo_toNat, BitVec.toNat_ofNat,
    Nat.mod_eq_of_lt (by omega)]

theorem pulseShown_other {c e : Channel} (h : e ≠ c) (s : State) :
    (pulseShown c s).brightOf e = s.brightOf e := brightOf_setBright_ne _ s h

/-- STEP counts modulo 75. -/
theorem pulseShown_step (c : Channel) {s : State} (range : s.fxStep.toNat ≤ 74) :
    (pulseShown c s).fxStep.toNat = (s.fxStep.toNat + 1) % 75 := by
  show (if s.fxStep = 74 then 0 else s.fxStep + 1 : Word).toNat = _
  split
  · rename_i last
    rw [last]
    rfl
  · rename_i inside
    bv_omega

/-- TICK.PULSE of an active Pulse with a target and STEP in the table. -/
theorem exec_tickPulse_active {s : State} {c : Channel} (active : maskHas s.activeMask .pulse = true)
    (target : s.pulseCh = some c) (range : s.fxStep.toNat ≤ 74) (covers : s.TablesCover) :
    ∃ t, exec .tickPulse s = .next t ∧
      Ticked .pulse Config.pulseTickNs (pulseShown c (s.disarmFxt .pulse)) s t :=
  exec_tickOf_active (k := .pulse) active (pulseBody_target target range) covers

/-- Settles O38: the frame of every tick around `pulseShown`. -/
theorem pulseTick : Obligations.PulseTick := by
  intro s c active target _ range covers
  obtain ⟨t, hx, ticked⟩ := exec_tickPulse_active active target range covers
  refine ⟨t, hx, ?_, ?_, ticked.timer, ?_, ticked.timers, fun r hr => ?_, ticked.faultBy, ticked.response,
    ticked.inputs⟩
  · rw [ticked.bright]
    exact pulseShown_target c _
  · rw [ticked.fxStep]
    exact pulseShown_step c (s := s.disarmFxt .pulse) range
  · refine ticked.emitted_as (setBright_framed c _ s).toSameConfig fun e => ?_
    by_cases he : e = c
    · subst he
      rw [brightOf_setBright_same, ← ticked.kind]
      exact hardwired_hardwired _ _
    · rw [brightOf_setBright_ne _ _ he, ticked.bright]
      exact (pulseShown_other he _).symm
  · simp only [List.cons_append, List.nil_append, List.mem_cons, not_or] at hr
    obtain ⟨bright, rest⟩ := hr
    refine ticked.reg (fun _ => rfl) (fun e he => pulseShown_other (fun hc => bright (by rw [he, hc])) _) ?_
    simpa only [List.cons_append, List.nil_append, List.mem_cons, not_or] using rest

/-! ## Blink and Heartbeat -/

/-- Dark or the saved colour, as Blink and Heartbeat alternate (42_effects.md rules R97, R98). -/
theorem brightOf_dark_or_saved (dark : Prop) [Decidable dark] (s : State) (c : Channel) :
    (if dark then s.darken else s.restoreColor).brightOf c =
      if dark then 0 else hardwired (s.kind.get c) (s.savedColor.get c) := by
  split
  · exact brightOf_darken s c
  · exact brightOf_restoreColor s c

theorem dark_or_saved_phase (dark : Prop) [Decidable dark] (s : State) :
    (if dark then s.darken else s.restoreColor).phase = s.phase := by
  split <;> rfl

/-- A tick that sets every brightness touches no register but those, STEP, its own timer, the soft-PWM timers
and the generators. -/
theorem Ticked.reg_allBright {k : Effect} {d : Nat} {b s t : State} (h : Ticked k d b s t)
    (phase : b.phase = s.phase) {r : Reg}
    (hr : r ∉ allBrightRegs ++ [Reg.fxStep, .fxtArmed k, .fxtDeadline k] ++ allSwtRegs ++ allGenRegs) :
    t.reg r = s.reg r := by
  simp only [List.append_assoc, List.mem_append, not_or] at hr
  obtain ⟨bright, rest⟩ := hr
  refine h.reg (fun _ => phase) (fun c hc => ?_) (by simpa only [List.append_assoc, List.mem_append, not_or])
  subst hc
  exact absurd (by cases c <;> decide) bright

/-- Settles O39: the frame of every tick around Blink's body. -/
theorem blinkTick : Obligations.BlinkTick := by
  intro s active range covers
  obtain ⟨t, hx, ticked⟩ := exec_tickOf_active (k := .blink) active rfl covers
  refine ⟨t, hx, fun c => ?_, ?_, ticked.timer, ticked.emitted_setAllBright, ticked.timers,
    fun r hr => ticked.reg_allBright ?_ hr, ticked.faultBy, ticked.response, ticked.inputs⟩
  · rw [ticked.bright]
    exact brightOf_dark_or_saved (s.fxStep = 0) (s.disarmFxt .blink) c
  · rw [ticked.fxStep]
    show (1 - s.fxStep).toNat = 1 - s.fxStep.toNat
    bv_omega
  · exact dark_or_saved_phase (s.fxStep = 0) (s.disarmFxt .blink)

/-- The long interval is the one after step 2 (42_effects.md rule R98). -/
theorem heartbeatInterval_eq (step : Word) :
    heartbeatInterval step = if step.toNat = 2 then 700000000 else 100000000 := by
  have two : step = 2 ↔ step.toNat = 2 := ⟨fun h => h ▸ rfl, fun h => BitVec.eq_of_toNat_eq h⟩
  simp only [heartbeatInterval, two, Config.hbLongNs, Config.hbShortNs]

/-- Settles O40: the frame of every tick around Heartbeat's body. -/
theorem heartbeatTick : Obligations.HeartbeatTick := by
  intro s active range covers
  obtain ⟨t, hx, ticked⟩ := exec_tickOf_active (k := .heartbeat) active rfl covers
  refine ⟨t, hx, fun c => ?_, ?_, ?_, ticked.emitted_setAllBright, ticked.timers,
    fun r hr => ticked.reg_allBright ?_ hr, ticked.faultBy, ticked.response, ticked.inputs⟩
  · rw [ticked.bright]
    exact brightOf_dark_or_saved (s.fxStep.toNat % 2 = 0) (s.disarmFxt .heartbeat) c
  · rw [ticked.fxStep]
    show (BitVec.ofNat 32 ((s.fxStep.toNat + 1) % 4)).toNat = _
    rw [BitVec.toNat_ofNat, Nat.mod_eq_of_lt (by omega)]
  · rw [ticked.timer, tickInterval, heartbeatInterval_eq]
    rfl
  · exact dark_or_saved_phase (s.fxStep.toNat % 2 = 0) (s.disarmFxt .heartbeat)

/-! ## Rainbow -/

/-- The three channels of a phase are different, and none is White (42_effects.md rule R99). -/
theorem wheel_distinct (p : Fin 6) :
    wheelMoving p ≠ wheelHigh p ∧ wheelMoving p ≠ wheelLow p ∧ wheelHigh p ≠ wheelLow p ∧
      wheelMoving p ≠ .white ∧ wheelHigh p ≠ .white ∧ wheelLow p ≠ .white := by
  revert p
  decide

theorem wheelNext_val (p : Fin 6) : (wheelNext p).val = (p.val + 1) % 6 := by
  revert p
  decide

theorem wheelValue_toNat (up : Bool) (m j : Word) :
    (wheelValue up m j).toNat =
      if up then min j.toNat m.toNat else m.toNat - min j.toNat m.toNat := by
  cases up with
  | true => exact clampTo_toNat m j
  | false => exact (BitVec.toNat_sub_of_le (clampTo_le m j)).trans (by rw [clampTo_toNat]; rfl)

/-- The colours of Rainbow's body (42_effects.md rule R99). -/
def wheelShown (s : State) : State :=
  ((s.setBright (wheelMoving s.phase)
      (wheelValue (wheelUp s.phase) (s.maxbOf (wheelMoving s.phase)) s.fxStep)).setBright
    (wheelHigh s.phase) (s.maxbOf (wheelHigh s.phase))).setBright (wheelLow s.phase) 0

/-- Rainbow's body: the colours, then the next STEP or the next phase (42_effects.md rule R100). -/
def wheelTurned (s : State) : State :=
  if (s.maxbOf (wheelMoving s.phase)).toNat ≤ s.fxStep.toNat + 1 then
    { wheelShown s with phase := wheelNext s.phase, fxStep := 0 }
  else { wheelShown s with fxStep := s.fxStep + 1 }

theorem rainbowBody_eq (s : State) : rainbowBody s = .ok (wheelTurned s) := rfl

theorem wheelTurned_brightOf (s : State) (c : Channel) :
    (wheelTurned s).brightOf c = (wheelShown s).brightOf c := by
  unfold wheelTurned
  split <;> rfl

theorem wheelShown_moving (s : State) :
    (wheelShown s).brightOf (wheelMoving s.phase) =
      wheelValue (wheelUp s.phase) (s.maxbOf (wheelMoving s.phase)) s.fxStep := by
  obtain ⟨moveHigh, moveLow, -⟩ := wheel_distinct s.phase
  rw [wheelShown, brightOf_setBright_ne _ _ moveLow, brightOf_setBright_ne _ _ moveHigh,
    brightOf_setBright_same, hardwired_of_le_maxbOf (wheelValue_le _ _ _)]

theorem wheelShown_high (s : State) :
    (wheelShown s).brightOf (wheelHigh s.phase) = s.maxbOf (wheelHigh s.phase) := by
  obtain ⟨-, -, highLow, -⟩ := wheel_distinct s.phase
  rw [wheelShown, brightOf_setBright_ne _ _ highLow, brightOf_setBright_same, State.setBright_kind,
    hardwired_of_le_maxbOf (BitVec.le_refl _)]

theorem wheelShown_low (s : State) : (wheelShown s).brightOf (wheelLow s.phase) = 0 := by
  rw [wheelShown, brightOf_setBright_same]
  exact hardwired_zero _

theorem wheelShown_white (s : State) : (wheelShown s).brightOf .white = s.brightOf .white := by
  obtain ⟨-, -, -, moving, high, low⟩ := wheel_distinct s.phase
  rw [wheelShown, brightOf_setBright_ne _ _ low.symm, brightOf_setBright_ne _ _ high.symm,
    brightOf_setBright_ne _ _ moving.symm]

theorem wheelTurned_next {s : State} (last : (s.maxbOf (wheelMoving s.phase)).toNat ≤ s.fxStep.toNat + 1) :
    (wheelTurned s).phase = wheelNext s.phase ∧ (wheelTurned s).fxStep = 0 := by
  rw [wheelTurned, if_pos last]
  exact ⟨rfl, rfl⟩

theorem wheelTurned_stay {s : State}
    (inside : s.fxStep.toNat + 1 < (s.maxbOf (wheelMoving s.phase)).toNat) :
    (wheelTurned s).phase = s.phase ∧ (wheelTurned s).fxStep.toNat = s.fxStep.toNat + 1 := by
  have fits := (s.maxbOf (wheelMoving s.phase)).isLt
  rw [wheelTurned, if_neg (Nat.not_le.mpr inside)]
  refine ⟨rfl, ?_⟩
  show (s.fxStep + 1).toNat = _
  bv_omega

/-- TICK.RAINBOW of an active Rainbow. -/
theorem exec_tickRainbow_active {s : State} (active : maskHas s.activeMask .rainbow = true)
    (covers : s.TablesCover) :
    ∃ t, exec .tickRainbow s = .next t ∧
      Ticked .rainbow Config.pulseTickNs (wheelTurned (s.disarmFxt .rainbow)) s t :=
  exec_tickOf_active (k := .rainbow) active (rainbowBody_eq _) covers

/-- Settles O41: the row of the phase is the wheel's (`wheelMoving` and the others), and the frame of every tick
stands around `wheelTurned`. -/
theorem rainbowTick : Obligations.RainbowTick := by
  intro s m hi lo up active row covers
  have wheel : (m, up, hi, lo) =
      (wheelMoving s.phase, wheelUp s.phase, wheelHigh s.phase, wheelLow s.phase) := by
    rw [row]
    generalize s.phase = p
    revert p
    decide
  obtain ⟨rfl, rfl, rfl, rfl⟩ : m = wheelMoving s.phase ∧ up = wheelUp s.phase ∧
      hi = wheelHigh s.phase ∧ lo = wheelLow s.phase := by simpa only [Prod.mk.injEq] using wheel
  obtain ⟨t, hx, ticked⟩ := exec_tickRainbow_active active covers
  have bright : ∀ c, t.brightOf c = (wheelShown (s.disarmFxt .rainbow)).brightOf c :=
    fun c => (ticked.bright c).trans (wheelTurned_brightOf _ c)
  refine ⟨t, hx, ?_, ?_, ?_, ?_, fun last => ?_, fun inside => ?_, ticked.timer,
    ticked.emitted_setAllBright, ticked.timers, fun r hr => ?_, ticked.faultBy, ticked.response,
    ticked.inputs⟩
  · exact (congrArg BitVec.toNat ((bright _).trans (wheelShown_moving _))).trans (wheelValue_toNat _ _ _)
  · exact (bright _).trans (wheelShown_high (s.disarmFxt .rainbow))
  · exact (bright _).trans (wheelShown_low (s.disarmFxt .rainbow))
  · exact (bright _).trans (wheelShown_white _)
  · obtain ⟨phase, step⟩ := wheelTurned_next (s := s.disarmFxt .rainbow) last
    rw [ticked.phase, ticked.fxStep, phase, step]
    exact ⟨wheelNext_val _, rfl⟩
  · rw [ticked.phase, ticked.fxStep]
    exact wheelTurned_stay (s := s.disarmFxt .rainbow) inside
  · simp only [List.append_assoc, List.mem_append, List.mem_cons, List.not_mem_nil, or_false, not_or] at hr
    obtain ⟨⟨red, green, blue, step, phase, armed, deadline⟩, ports⟩ := hr
    refine ticked.reg (fun h => absurd h phase) (fun c hc => ?_)
      (by simpa only [List.append_assoc, List.mem_append, List.mem_cons, List.not_mem_nil, or_false, not_or]
        using ⟨⟨step, armed, deadline⟩, ports⟩)
    rw [wheelTurned_brightOf]
    cases c with
    | red => exact absurd hc red
    | green => exact absurd hc green
    | blue => exact absurd hc blue
    | white => exact wheelShown_white _

end Sys2Proof.Machine
end

section
/-! Runs of ticks: Pulse's waveform and Rainbow's wheel (42_effects.md rules R105, R106), and the round trip of an
effect (rule R103). -/

namespace Sys2Proof.Machine

/-! ## Instructions in a row -/

theorem execAll_append {is : List Instr} {s t : State} (h : execAll is s = .next t) (js : List Instr) :
    execAll (is ++ js) s = execAll js t := by
  induction is generalizing s with
  | nil =>
    cases h
    rfl
  | cons i is ih =>
    obtain ⟨u, hu⟩ := exec_is_next i s
    simp only [execAll, hu, List.cons_append] at h ⊢
    exact ih h

theorem execAll_cons {i : Instr} {s t : State} (h : exec i s = .next t) (is : List Instr) :
    execAll (i :: is) s = execAll is t := by
  simp only [execAll, h]

theorem execAll_singleton (i : Instr) (s : State) : execAll [i] s = exec i s := by
  obtain ⟨t, ht⟩ := exec_is_next i s
  rw [execAll_cons ht, ht]
  rfl

theorem execAll_replicate_add {i : Instr} {s t : State} {m : Nat}
    (h : execAll (List.replicate m i) s = .next t) (n : Nat) :
    execAll (List.replicate (m + n) i) s = execAll (List.replicate n i) t := by
  rw [← List.replicate_append_replicate]
  exact execAll_append h _

theorem execAll_replicate_succ {i : Instr} {s t : State} {n : Nat}
    (h : execAll (List.replicate n i) s = .next t) : execAll (List.replicate (n + 1) i) s = exec i t := by
  rw [execAll_replicate_add h 1]
  exact execAll_singleton i t

/-- What holds at the start, and what each of the first n runs of an instruction passes on to the next, holds
after n runs. -/
theorem execAll_replicate {P : Nat → State → Prop} {i : Instr} {s : State} (start : P 0 s) (n : Nat)
    (run : ∀ j < n, ∀ t, P j t → ∃ u, exec i t = .next u ∧ P (j + 1) u) :
    ∃ t, execAll (List.replicate n i) s = .next t ∧ P n t := by
  induction n with
  | zero => exact ⟨s, rfl, start⟩
  | succ n ih =>
    obtain ⟨t, ht, hp⟩ := ih fun j hj => run j (Nat.lt_succ_of_lt hj)
    obtain ⟨u, hu, hq⟩ := run n n.lt_succ_self t hp
    exact ⟨u, (execAll_replicate_succ ht).trans hu, hq⟩

/-! ## Pulse's waveform -/

/-- `t` is `s` after n ticks of Pulse with target c. -/
structure Pulsed (c : Channel) (s : State) (n : Nat) (t : State) : Prop where
  active : maskHas t.activeMask .pulse = true
  target : t.pulseCh = some c
  covers : t.TablesCover
  maxb   : t.maxbOf c = s.maxbOf c
  step   : t.fxStep.toNat = n % 75
  others : ∀ e, e ≠ c → t.brightOf e = s.brightOf e

/-- One more tick of Pulse: the target shows the table's entry at n modulo 75. -/
theorem Pulsed.tick {c : Channel} {s t : State} {n : Nat} (h : Pulsed c s n t) :
    ∃ u, exec .tickPulse t = .next u ∧ Pulsed c s (n + 1) u ∧
      (u.brightOf c).toNat = min (pulseEntry (n % 75)) (s.maxbOf c).toNat := by
  have range : t.fxStep.toNat ≤ 74 := by
    rw [h.step]
    exact Nat.le_of_lt_succ (Nat.mod_lt n (by decide))
  obtain ⟨u, hu, ticked⟩ := exec_tickPulse_active h.active h.target range h.covers
  refine ⟨u, hu, {
    active := ticked.activeMask ▸ h.active
    target := ticked.pulseCh.trans h.target
    covers := ticked.covers
    maxb := (ticked.maxbOf c).trans h.maxb
    step := ?_
    others := fun e he => ?_ }, ?_⟩
  · rw [ticked.fxStep, pulseShown_step c (s := t.disarmFxt .pulse) range, State.disarmFxt_fxStep, h.step,
      Nat.mod_add_mod]
  · exact ((ticked.bright e).trans (pulseShown_other he _)).trans (h.others e he)
  · rw [ticked.bright, pulseShown_target, State.disarmFxt_fxStep, h.step, ← h.maxb]
    rfl

/-- Settles O44: n ticks by `Pulsed.tick`, and the entry of the tick after them. -/
theorem pulseWaveform : Obligations.PulseWaveform := by
  intro s c n active target _ zero covers
  have start : Pulsed c s 0 s := ⟨active, target, covers, rfl, by rw [zero]; rfl, fun _ _ => rfl⟩
  obtain ⟨t, ht, pulsed⟩ := execAll_replicate start n fun _ _ _ h => by
    obtain ⟨u, hu, next, -⟩ := h.tick
    exact ⟨u, hu, next⟩
  obtain ⟨u, hu, next, shown⟩ := pulsed.tick
  exact ⟨u, (execAll_replicate_succ ht).trans hu, shown, next.step, next.others⟩

/-! ## Rainbow's wheel -/

/-- Rainbow is active at phase p and STEP j, with the given maxima. -/
structure OnWheel (maxima : Channel → Word) (p : Fin 6) (j : Nat) (s : State) : Prop where
  active : maskHas s.activeMask .rainbow = true
  covers : s.TablesCover
  maxb   : ∀ c, s.maxbOf c = maxima c
  phase  : s.phase = p
  step   : s.fxStep.toNat = j

section Wheel
variable {maxima : Channel → Word} {p : Fin 6} {j : Nat} {s : State} (h : OnWheel maxima p j s)
include h

/-- Where `wheelTurned` leads, a tick of Rainbow leads. -/
theorem OnWheel.tick {q : Fin 6} {l : Nat}
    (turn : (wheelTurned (s.disarmFxt .rainbow)).phase = q ∧
      (wheelTurned (s.disarmFxt .rainbow)).fxStep.toNat = l) :
    ∃ t, exec .tickRainbow s = .next t ∧ OnWheel maxima q l t := by
  obtain ⟨phase, step⟩ := turn
  obtain ⟨t, ht, ticked⟩ := exec_tickRainbow_active h.active h.covers
  exact ⟨t, ht, {
    active := ticked.activeMask ▸ h.active
    covers := ticked.covers
    maxb := fun c => (ticked.maxbOf c).trans (h.maxb c)
    phase := ticked.phase.trans phase
    step := ticked.fxStep ▸ step }⟩

/-- A tick inside a phase advances STEP. -/
theorem OnWheel.tick_inside (inside : j + 1 < (maxima (wheelMoving p)).toNat) :
    ∃ t, exec .tickRainbow s = .next t ∧ OnWheel maxima p (j + 1) t := by
  obtain ⟨-, -, maxb, rfl, rfl⟩ := id h
  exact h.tick (wheelTurned_stay (s := s.disarmFxt .rainbow) (maxb _ ▸ inside))

/-- The last tick of a phase starts the next one at STEP 0. -/
theorem OnWheel.tick_last (last : (maxima (wheelMoving p)).toNat ≤ j + 1) :
    ∃ t, exec .tickRainbow s = .next t ∧ OnWheel maxima (wheelNext p) 0 t := by
  obtain ⟨-, -, maxb, rfl, rfl⟩ := id h
  obtain ⟨phase, step⟩ := wheelTurned_next (s := s.disarmFxt .rainbow) (maxb _ ▸ last)
  exact h.tick ⟨phase, congrArg BitVec.toNat step⟩

end Wheel

/-- A phase takes as many ticks as its moving channel's maximum (42_effects.md rule R106). -/
theorem OnWheel.phase_ticks {maxima : Channel → Word} {p : Fin 6} {s : State} (h : OnWheel maxima p 0 s)
    (positive : maxima (wheelMoving p) ≠ 0) :
    ∃ t, execAll (List.replicate (maxima (wheelMoving p)).toNat .tickRainbow) s = .next t ∧
      OnWheel maxima (wheelNext p) 0 t := by
  obtain ⟨n, hn⟩ := Nat.exists_eq_succ_of_ne_zero (word_toNat_pos positive).ne'
  obtain ⟨t, ht, inside⟩ := execAll_replicate (P := OnWheel maxima p) h n
    fun j hj u hu => hu.tick_inside (by omega)
  obtain ⟨u, hu, turned⟩ := inside.tick_last hn.le
  rw [hn]
  exact ⟨u, (execAll_replicate_succ ht).trans hu, turned⟩

/-- Any number of phases from phase 0, when every moving channel has a positive maximum. -/
theorem OnWheel.phases {maxima : Channel → Word} {s : State} (h : OnWheel maxima 0 0 s)
    (positive : ∀ p, maxima (wheelMoving p) ≠ 0) (n : Nat) :
    ∃ t, execAll (List.replicate (∑ l ∈ Finset.range n, (maxima (wheelMoving (wheelNext^[l] 0))).toNat)
        .tickRainbow) s = .next t ∧ OnWheel maxima (wheelNext^[n] 0) 0 t := by
  induction n with
  | zero => exact ⟨s, rfl, h⟩
  | succ n ih =>
    obtain ⟨t, ht, at_n⟩ := ih
    obtain ⟨u, hu, turned⟩ := at_n.phase_ticks (positive _)
    rw [Finset.sum_range_succ, execAll_replicate_add ht, Function.iterate_succ_apply']
    exact ⟨u, hu, turned⟩

/-- Settles O43: six phases (`OnWheel.phases`), in which each of Green, Red and Blue moves twice. -/
theorem rainbowCycle : Obligations.RainbowCycle := by
  intro s active phase step red green blue covers
  have start : OnWheel s.maxbOf 0 0 s := ⟨active, covers, fun _ => rfl, phase, by rw [step]; rfl⟩
  have positive : ∀ p, s.maxbOf (wheelMoving p) ≠ 0 := fun p => by
    match p with
    | 0 | 3 => exact green
    | 1 | 4 => exact red
    | 2 | 5 => exact blue
  have ticks : 2 * ((s.maxbOf .red).toNat + (s.maxbOf .green).toNat + (s.maxbOf .blue).toNat) =
      ∑ l ∈ Finset.range 6, (s.maxbOf (wheelMoving (wheelNext^[l] 0))).toNat := by
    simp only [Finset.sum_range_succ, Finset.sum_range_zero, Function.iterate_succ_apply,
      Function.iterate_zero_apply, wheelNext, wheelMoving]
    omega
  obtain ⟨t, ht, turned⟩ := start.phases positive 6
  exact ⟨t, ticks ▸ ht, turned.phase, BitVec.eq_of_toNat_eq turned.step, turned.active⟩

/-! ## The round trip of an effect -/

/-- `t` has KIND, LIFECYCLE, the active effect and the saved colour of `s`. -/
structure SameEffect (s t : State) : Prop where
  kind       : t.kind = s.kind
  lifecycle  : t.lifecycle = s.lifecycle
  activeMask : t.activeMask = s.activeMask
  savedColor : t.savedColor = s.savedColor

theorem SameEffect.trans {s t u : State} (h : SameEffect s t) (g : SameEffect t u) : SameEffect s u :=
  ⟨g.kind.trans h.kind, g.lifecycle.trans h.lifecycle, g.activeMask.trans h.activeMask,
    g.savedColor.trans h.savedColor⟩

theorem Refreshed.sameEffect {s t : State} (h : Refreshed s t) : SameEffect s t :=
  ⟨h.kind, h.lifecycle, h.activeMask, h.savedColor⟩

theorem Answered.sameEffect {s t : State} (h : Answered s t) : SameEffect s t :=
  ⟨h.kind, h.lifecycle, h.activeMask, h.savedColor⟩

theorem setBright_sameEffect (c : Channel) (v : Word) (s : State) : SameEffect s (s.setBright c v) :=
  ⟨rfl, rfl, rfl, rfl⟩

theorem BodyMoves.sameEffect {k : Effect} {s b : State} (h : BodyMoves k (s.disarmFxt k) b) :
    SameEffect s b := by
  rw [h.same]
  exact ⟨rfl, rfl, rfl, rfl⟩

/-- Only ACT, DEACT, SHUTDOWN and INIT touch the active effect or the saved colour. -/
theorem Moves.sameEffect_or {i : Instr} {s u : State} (m : Moves i s u) :
    SameEffect s u ∨ (∃ ch ef, i = .act ch ef) ∨ (∃ ef, i = .deact ef) ∨ i = .shutdown ∨
      ∃ cfg, i = .init cfg := by
  cases m with
  | act | actReplace | actStop => exact .inr (.inl ⟨_, _, rfl⟩)
  | deact => exact .inr (.inr (.inl ⟨_, rfl⟩))
  | shutdown => exact .inr (.inr (.inr (.inl rfl)))
  | init | initFailed => exact .inr (.inr (.inr (.inr ⟨_, rfl⟩)))
  | setb _ _ _ _ refresh => exact .inl ((setBright_sameEffect _ _ s).trans refresh.sameEffect)
  | update _ refresh => exact .inl refresh.sameEffect
  | tick _ _ body refresh =>
    exact .inl ((body.sameEffect.trans refresh.sameEffect).trans ⟨rfl, rfl, rfl, rfl⟩)
  | tickStop _ _ body refresh => exact .inl (body.sameEffect.trans refresh.sameEffect)
  | keep | fireSteady | fireToggle | fireStop | tickQuiet => exact .inl ⟨rfl, rfl, rfl, rfl⟩

/-- The instructions of the round trip's middle: ticks, FIREs and SETBs (42_effects.md rule R103). -/
def DuringEffect (i : Instr) : Prop :=
  (∃ l, i = tickOf l) ∨ (∃ c, i = .fire c) ∨ ∃ c v, i = .setb c v

theorem exec_duringEffect {i : Instr} {s t : State} (during : DuringEffect i) (hx : exec i s = .next t) :
    SameEffect s t := by
  obtain ⟨u, m, a⟩ := exec_moves hx
  rcases m.sameEffect_or with same | other
  · exact same.trans a.sameEffect
  · exfalso
    rcases during with ⟨l, rfl⟩ | ⟨c, rfl⟩ | ⟨c, v, rfl⟩
    · cases l <;> simp [tickOf] at other
    · simp at other
    · simp at other

theorem execAll_duringEffect {is : List Instr} (during : ∀ i ∈ is, DuringEffect i) (s : State) :
    ∃ t, execAll is s = .next t ∧ SameEffect s t := by
  induction is generalizing s with
  | nil => exact ⟨s, rfl, rfl, rfl, rfl, rfl⟩
  | cons i is ih =>
    obtain ⟨u, hu⟩ := exec_is_next i s
    obtain ⟨t, ht, same⟩ := ih (fun j hj => during j (List.mem_cons_of_mem i hj)) u
    exact ⟨t, (execAll_cons hu is).trans ht,
      (exec_duringEffect (during i List.mem_cons_self) hu).trans same⟩

/-- After an ACT that activates k, the middle of a round trip and DEACT k leave ACT's snapshot. -/
theorem execAll_roundTrip {s t : State} {ch : BitVec 4} {k : Effect} {is : List Instr}
    (act : exec (.act ch k.field) s = .next t) (running : t.lifecycle = .running)
    (active : t.activeMask = effectBit k) (during : ∀ i ∈ is, DuringEffect i) :
    ∃ v, execAll (.act ch k.field :: is ++ [.deact k.field]) s = .next v ∧
      ∀ c, v.brightOf c = hardwired (t.kind.get c) (t.savedColor.get c) := by
  obtain ⟨u, hu, same⟩ := execAll_duringEffect during t
  obtain ⟨v, hv⟩ := exec_is_next (.deact k.field) u
  have still : maskHas u.activeMask k = true := maskHas_of_effectBit (same.activeMask.trans active)
  refine ⟨v, ?_, fun c => ?_⟩
  · rw [execAll_append ((execAll_cons act is).trans hu), execAll_singleton, hv]
  · rw [exec_deact_brightOf (same.lifecycle.trans running) still hv, same.kind, same.savedColor]

/-- Settles O42: the snapshot is the brightness before the ACT, or the saved colour the replaced effect's
deactivation restored, and it lasts until the DEACT (`execAll_roundTrip`). -/
theorem roundTripLaw : Obligations.RoundTripLaw := by
  refine ⟨fun s ch k is running idle aim during => ?_, fun s ch k a is running active covers aim during => ?_⟩
  · obtain ⟨t, ht, shown⟩ := execAll_roundTrip (exec_act_idle running idle aim) running rfl during
    refine ⟨t, ht, fun c => (shown c).trans ?_⟩
    exact (congrArg (hardwired _) (Bank.get_ofFn _ c)).trans (hardwired_hardwired _ _)
  · have act := exec_act_active running active covers aim
    have d := refreshed_restoredFrom a covers
    generalize refreshed (restoredFrom a s) = u at act d
    obtain ⟨t, ht, shown⟩ := execAll_roundTrip act (d.lifecycle.trans running) rfl during
    refine ⟨t, ht, fun c => (shown c).trans ?_⟩
    calc hardwired (u.kind.get c) ((Bank.ofFn u.brightOf).get c)
        = hardwired (s.kind.get c) (hardwired (s.kind.get c) (s.savedColor.get c)) := by
          rw [d.kind, Bank.get_ofFn, d.bright]
      _ = hardwired (s.kind.get c) (s.savedColor.get c) := hardwired_hardwired _ _

end Sys2Proof.Machine
end

section
/-! The device facade (43_facade.md rules R109 to R113): what SETB, UPDATE, SHUTDOWN, RDB and RDFX answer and
leave. -/

namespace Sys2Proof.Machine

/-! ## UPDATE -/

/-- UPDATE of a running block is one full refresh (43_facade.md rule R110). -/
theorem exec_update_running {s : State} (running : s.lifecycle = .running) (covers : s.TablesCover) :
    exec .update s = .next ((refreshed s).respond .ok 0) := by
  simp only [exec, execUpdate, running, ne_eq, not_true_eq_false, if_false, updateStatus_covered covers,
    endCommand_ok]

/-- Settles O29: UPDATE leaves a full refresh (`exec_update_running`), whose outputs, timers and frame are
those of `refreshed`. -/
theorem updateRefreshesAll : Obligations.UpdateRefreshesAll := by
  refine ⟨fun s idle => if_pos idle, fun s running covers => ?_⟩
  have refresh := refreshed_refreshed covers
  have emitted := refreshed_emitted s
  refine ⟨_, exec_update_running running covers, rfl,
    ⟨emitted.log, emitted.generators, emitted.pins⟩, fun c => ?_,
    fun r hr => (respond_reg _ _ _ r).trans (refresh.reg r hr), refresh.faultBy, refresh.inputs⟩
  rw [State.respond_swt, refreshed_swt, Bank.get_ofFn]

/-! ## SETB -/

theorem channelRefreshed_refreshed {s : State} (covers : s.TablesCover) (c : Channel) :
    Refreshed s (channelRefreshed c s) := by
  have refresh := channelUpdate_refreshed c s
  rwa [channelUpdate_covered covers] at refresh

/-- A ChannelUpdate appends its events to the log and leaves each port as they do. -/
theorem channelRefreshed_emitted (c : Channel) (s : State) :
    s.Emitted (s.channelEvents c (updateValue c s)) (channelRefreshed c s) :=
  ((s.withSwt (s.swt.set c (s.softTimerAfter c))).emitAll_emitted _).congr rfl rfl rfl rfl rfl rfl rfl

theorem channelRefreshed_swt (c : Channel) (s : State) :
    (channelRefreshed c s).swt = s.swt.set c (s.softTimerAfter c) := by
  rw [channelRefreshed, State.emitAll_swt, State.withSwt_swt]

/-- The events of a ChannelUpdate are all its own channel's. -/
theorem portEvents_channelEvents_ne {c d : Channel} (h : d ≠ c) (s : State) (b : Word) :
    portEvents d (s.channelEvents c b) = [] := by
  cases hk : s.kind.get c with
  | unassigned => rw [channelEvents_unassigned hk, portEvents_nil]
  | softwarePWM => simp [channelEvents_soft hk, portEvents_cons, h.symm]
  | hardwarePWM =>
    by_cases hb : b = 0
    · rw [hb, channelEvents_hard_zero hk]
      simp [portEvents_cons, h.symm]
    · simp [channelEvents_hard hk hb, portEvents_cons, h.symm]

/-- What a ChannelUpdate with brightness b makes of its channel's generator (40_channel_update.md rules R77,
R79). -/
def generatorShowing (s : State) (c : Channel) (b : Word) : Generator :=
  (portEvents c (s.channelEvents c b)).foldl generatorAfter (s.generator.get c)

theorem generatorShowing_soft {s : State} {c : Channel} (hk : s.kind.get c = .softwarePWM) (b : Word) :
    generatorShowing s c b = s.generator.get c := by
  simp [generatorShowing, channelEvents_soft hk, portEvents_cons, generatorAfter]

theorem generatorShowing_hard_zero {s : State} {c : Channel} (hk : s.kind.get c = .hardwarePWM) :
    generatorShowing s c 0 = { s.generator.get c with enabled := some false } := by
  rw [generatorShowing, channelEvents_hard_zero hk]
  simp [portEvents_cons, generatorAfter]

theorem generatorShowing_hard {s : State} {c : Channel} (hk : s.kind.get c = .hardwarePWM) {b : Word}
    (hb : b ≠ 0) :
    generatorShowing s c b =
      { enabled := some true,
        dutyNs := some (dutyWord (s.lthOf c) s.periodNs (s.maxbOf c) (s.rawValue c b)),
        periodNs := some s.periodNs } := by
  simp [generatorShowing, channelEvents_hard hk hb, portEvents_cons, generatorAfter]

/-- A ChannelUpdate touches its own soft-PWM timer and generator and no other register. -/
theorem channelRefreshed_reg {s : State} (covers : s.TablesCover) (c : Channel) {r : Reg}
    (h : r ∉ [Reg.swtArmed c, .swtDeadline c, .genEnabled c, .genDutyNs c, .genPeriodNs c]) :
    (channelRefreshed c s).reg r = s.reg r := by
  by_cases hr : r ∈ allSwtRegs ++ allGenRegs
  · have timer : ∀ d, d ≠ c → (channelRefreshed c s).swt.get d = s.swt.get d := fun d hd => by
      rw [channelRefreshed_swt, Bank.get_set_ne _ _ hd]
    have generator : ∀ d, d ≠ c → (channelRefreshed c s).generator.get d = s.generator.get d := fun d hd => by
      rw [(channelRefreshed_emitted c s).generators d, portEvents_channelEvents_ne hd, List.foldl_nil]
    cases r with
    | swtArmed d | swtDeadline d =>
      have hd : d ≠ c := by rintro rfl; simp at h
      simp only [State.reg, timer d hd]
    | genEnabled d | genDutyNs d | genPeriodNs d =>
      have hd : d ≠ c := by rintro rfl; simp at h
      simp only [State.reg, generator d hd]
    | _ => simp [allSwtRegs, allGenRegs] at hr
  · exact (channelRefreshed_refreshed covers c).reg r hr

theorem setBright_reg (c : Channel) (v : Word) (s : State) {r : Reg} (h : r ≠ .bright c) :
    (s.setBright c v).reg r = s.reg r := by
  cases r with
  | bright d =>
    have hd : d ≠ c := fun e => h (e ▸ rfl)
    simp only [State.reg, brightOf_setBright_ne v s hd]
  | _ => rfl

theorem State.TablesCover.setBright {s : State} (h : s.TablesCover) (c : Channel) (v : Word) :
    (s.setBright c v).TablesCover := h.congr rfl rfl rfl

/-- SETB of an assigned channel with a value in range writes BRIGHT and updates that channel (43_facade.md rule
R109). -/
theorem exec_setb_running {s : State} {c : Channel} {v : Word} (running : s.lifecycle = .running)
    (assigned : s.kind.get c ≠ .unassigned) (bound : v ≤ s.maxbOf c) (covers : s.TablesCover) :
    exec (.setb c.field v) s = .next ((channelRefreshed c (s.setBright c v)).respond .ok 0) := by
  simp only [exec, execSetb, running, ne_eq, not_true_eq_false, if_false, Channel.ofField_field,
    if_neg assigned, if_neg (BitVec.not_lt.mpr bound), channelUpdate_covered (covers.setBright c v),
    endCommand_ok]

/-- After the write the mapper uses the value itself, hooked and clamped. -/
theorem updateValue_setBright {s : State} {c : Channel} (assigned : s.kind.get c ≠ .unassigned) (v : Word) :
    updateValue c (s.setBright c v) = clampTo (s.maxbOf c) (Config.notify c v) := by
  rw [updateValue, brightOf_setBright_same, hardwired_of_assigned assigned]
  rfl

/-- Settles O28: SETB is the write and one ChannelUpdate (`exec_setb_running`), whose events neither read nor
write BRIGHT and make the generator `generatorShowing`. -/
theorem setbSetsAndUpdates : Obligations.SetbSetsAndUpdates := by
  intro s c v running assigned bound covers
  have refresh := channelRefreshed_refreshed (covers.setBright c v) c
  have emitted := channelRefreshed_emitted c (s.setBright c v)
  rw [updateValue_setBright assigned] at emitted
  generalize clampTo (s.maxbOf c) (Config.notify c v) = b at emitted ⊢
  have generator : (channelRefreshed c (s.setBright c v)).generator.get c = generatorShowing s c b :=
    emitted.generators c
  refine ⟨_, exec_setb_running running assigned bound covers, rfl, ?_, emitted.log, ?_, ?_, ?_, ?_,
    fun r hr => ?_, refresh.faultBy, refresh.inputs⟩
  · calc (channelRefreshed c (s.setBright c v)).brightOf c
        = (s.setBright c v).brightOf c := refresh.brightOf c
      _ = v := by rw [brightOf_setBright_same, hardwired_of_assigned assigned]
  · rintro hard rfl
    exact generator.trans (generatorShowing_hard_zero hard)
  · exact fun hard on => generator.trans (generatorShowing_hard hard on)
  · exact fun soft => generator.trans (generatorShowing_soft soft b)
  · rw [State.respond_swt, channelRefreshed_swt, Bank.get_set_same]
    exact softTimerAfter_congr rfl rfl rfl c
  · obtain ⟨bright, rest⟩ := not_or.mp (List.mem_cons.not.mp hr)
    rw [respond_reg, channelRefreshed_reg (covers.setBright c v) c rest, setBright_reg c v s bright]

/-! ## SHUTDOWN -/

/-- SHUTDOWN of a running block (43_facade.md rule R111). -/
theorem exec_shutdown_running {s : State} (running : s.lifecycle = .running) :
    exec .shutdown s = .next (State.respond .ok 0 { turnedOff s with lifecycle := .shutdown }) := by
  simp only [exec, execShutdown, running, ne_eq, not_true_eq_false, if_false, endCommand_ok]
  rfl

theorem turnedOff_brightOf (s : State) (c : Channel) : (turnedOff s).brightOf c = 0 := by
  rw [State.brightOf, turnedOff_bright, Bank.get_all]
  exact hardwired_zero _

theorem turnedOff_inputs (s : State) : (turnedOff s).inputs = s.inputs := by
  simp only [State.inputs, turnedOff_cmdPort, turnedOff_cfgPort, turnedOff_oracle, turnedOff_agenda]

theorem turnedOff_timer_eq (s : State) (id : TimerId) :
    (turnedOff s).timer id = { s.timer id with armed := false } := by
  cases id with
  | soft c => exact (congrArg (·.get c) (turnedOff_swt s)).trans (Bank.get_ofFn _ c)
  | effect k => exact (congrArg (·.get k) (turnedOff_fxt s)).trans (FxBank.get_ofFn _ k)

/-- Settles O30: SHUTDOWN leaves `turnedOff` (`exec_shutdown_running`), and its output registers follow the
channel's kind. -/
theorem shutdownTurnsOff : Obligations.ShutdownTurnsOff := by
  refine ⟨fun s idle => if_pos idle, fun s running => ?_⟩
  have level := turnedOff_swLevel s
  have handle := turnedOff_acquired s
  have generator := turnedOff_generator s
  have pin := turnedOff_pin s
  refine ⟨_, exec_shutdown_running running, rfl, rfl, turnedOff_activeMask s, turnedOff_timer_eq s,
    turnedOff_brightOf s, turnedOff_log s, fun c hk => ?_, fun c hk => ?_, fun c hk => ?_,
    turnedOff_kind s, turnedOff_maxb s, turnedOff_lth s, turnedOff_levels s, turnedOff_periodNs s,
    turnedOff_savedColor s, turnedOff_fxStep s, turnedOff_phase s, turnedOff_pulseCh s, turnedOff_nowNs s,
    turnedOff_fault s, turnedOff_faultBy s, turnedOff_inputs s⟩
  all_goals
    specialize level c
    specialize handle c
    specialize generator c
    specialize pin c
    simp only [hk, reduceCtorEq, if_true, if_false] at level handle generator pin
    exact ⟨level, handle, generator, pin⟩

/-! ## RDB -/

/-- RDB of a channel answers its brightness (43_facade.md rule R112). -/
theorem exec_rdb_channel (s : State) (c : Channel) :
    exec (.rdb c.field) s = .next (s.respond .ok (s.brightOf c)) := by
  simp only [exec, execRdb, Channel.ofField_field]

theorem Channel.ofField_eq_none {ch : BitVec 4} (h : 4 ≤ ch.toNat) : Channel.ofField ch = none := by
  rw [← Option.not_isSome_iff_eq_none, Channel.ofField_isSome_iff]
  omega

theorem exec_shutdown_brightOf {s t : State} (running : s.lifecycle = .running)
    (hx : exec .shutdown s = .next t) (c : Channel) : t.brightOf c = 0 := by
  rw [exec_shutdown_running running] at hx
  cases hx
  exact turnedOff_brightOf s c

/-- Settles O31: RDB reads BRIGHT (`exec_rdb_channel`), which a SHUTDOWN has set to 0. -/
theorem rdbReads : Obligations.RdbReads := by
  refine fun s => ⟨exec_rdb_channel s, fun c => brightOf_unassigned, fun c t running hx => ?_,
    fun ch high => ?_⟩
  · rw [exec_rdb_channel, exec_shutdown_brightOf running hx]
    rfl
  · simp only [exec, execRdb, Channel.ofField_eq_none high]
    rfl

/-! ## RDFX -/

theorem maskHas_eq_getLsbD (m : BitVec 4) (k : Effect) : maskHas m k = m.getLsbD k.number := by
  cases k <;> decide +revert

theorem effectBit_getLsbD {k : Effect} {j : Nat} (h : (effectBit k).getLsbD j = true) : j = k.number := by
  have twoPow : (BitVec.twoPow 4 k.number).getLsbD j = true := h
  rw [BitVec.getLsbD_twoPow, Bool.and_eq_true, decide_eq_true_eq, decide_eq_true_eq] at twoPow
  exact twoPow.2.symm

/-- Under I2 at most one bit of ACTIVE_MASK is set. -/
theorem State.OneEffect.bits_eq {s : State} (h : s.OneEffect) {j l : Nat}
    (hj : s.activeMask.getLsbD j = true) (hl : s.activeMask.getLsbD l = true) : j = l := by
  rcases h with idle | ⟨k, active⟩
  · rw [idle] at hj
    exact absurd hj (by simp)
  · rw [active] at hj hl
    rw [effectBit_getLsbD hj, effectBit_getLsbD hl]

/-- Settles O32: zero extension keeps the bits of ACTIVE_MASK and adds none. -/
theorem rdfxReads : Obligations.RdfxReads := by
  refine fun s => ⟨s.activeMask.setWidth 32, rfl, ?_, fun k => ?_, fun inv j l hj hl => ?_⟩
  · exact BitVec.toNat_setWidth_of_le (by decide)
  · have inside : k.number < 32 := by cases k <;> decide
    rw [maskHas_eq_getLsbD, BitVec.getLsbD_setWidth, decide_eq_true inside, Bool.true_and]
  · rw [BitVec.getLsbD_setWidth, Bool.and_eq_true] at hj hl
    exact inv.oneEffect.bits_eq hj.2 hl.2

end Sys2Proof.Machine
end

section
/-! Runs without a fault (60_exceptions.md rules R118, R121): every agent's turn answers a next state, so a block
without a fault always steps, and from reset it steps for ever without one. -/

namespace Sys2Proof.Machine

/-- Whatever stands on the ports, the host's turn answers a next state. -/
theorem hostTurn_is_next (s : State) : ∃ t, hostTurn s = .next t := by
  unfold hostTurn
  split
  · exact ⟨s, rfl⟩
  · exact ⟨_, rfl⟩
  · split
    · exact ⟨_, rfl⟩
    · exact exec_is_next _ _

/-- Whatever word it is given, the timer unit's turn answers a next state. -/
theorem eventTurn_is_next (w : Word) (s : State) : ∃ t, eventTurn w s = .next t := by
  unfold eventTurn
  split
  · exact ⟨s, rfl⟩
  · exact ⟨s, rfl⟩
  · split
    · exact ⟨s, rfl⟩
    · split
      · exact exec_is_next _ _
      · exact ⟨s, rfl⟩

/-- Settles O17: FAULT lets every agent's turn through, and every turn answers a next state. -/
theorem stepAlwaysAnswers : Obligations.StepAlwaysAnswers := by
  intro s hf
  cases ha : s.agenda with
  | nil => exact ⟨s, idleBlockWaits s hf ha⟩
  | cons m rest =>
    simp only [step, ha, unlessHalted_running hf]
    cases m with
    | host a => exact hostTurn_is_next _
    | event w => exact eventTurn_is_next w _
    | advance t' => exact ⟨_, rfl⟩
    | reset => exact ⟨_, rfl⟩

/-- A run takes its first step, then the rest. -/
theorem core_run_succ {s t : State} (hs : step s = .next t) (n : Nat) :
    Sys2Proof.core.run (n + 1) s = Sys2Proof.core.run n t := by
  have first : Sys2Proof.core.step s = .next t := hs
  simp only [Host.Core.run, first]

/-- A good block runs on for any number of steps and stays good. -/
theorem State.Good.run {s : State} (h : s.Good) (n : Nat) :
    ∃ t : State, Sys2Proof.core.run n s = .next t ∧ t.Good := by
  induction n generalizing s with
  | zero => exact ⟨s, rfl, h⟩
  | succ n ih =>
    obtain ⟨u, hu⟩ := stepAlwaysAnswers s h.noFault
    obtain ⟨t, ht, good⟩ := ih (goodStatesStayGood s u h hu)
    exact ⟨t, (core_run_succ hu n).trans ht, good⟩

/-- Settles O22: a block after reset is good (`platformReset_good`) and stays so along its run. -/
theorem noFaultFromReset : Obligations.NoFaultFromReset := by
  intro s afterReset n
  have start : s.Good := afterReset ▸ platformReset_good s
  obtain ⟨t, ht, good⟩ := start.run n
  exact ⟨t, ht, good.noFault⟩

end Sys2Proof.Machine
end

section
/-! Host commands that fail (60_exceptions.md rules R118 to R120, R123): every way a command can answer another
status than OK, what it then leaves, and which error comes first. -/

namespace Sys2Proof.Machine

/-! ## Admission -/

/-- A command the admission table refuses is rejected before anything else is looked at. -/
theorem exec_not_admitted {i : Instr} {s : State} (refused : admits s.lifecycle i = false) :
    exec i s = reject .invalidState s := by
  cases i with
  | setb | update | act | deact | shutdown =>
    have idle : s.lifecycle ≠ .running := by simpa [admits] using refused
    exact if_pos idle
  | init cfg =>
    have running : s.lifecycle = .running := by simpa [admits] using refused
    exact if_pos running
  | rdb | rdfx | fire | tickPulse | tickBlink | tickHeartbeat | tickRainbow => cases refused

/-! ## Refused handles -/

/-- The events of an acquisition that fails after the given entries, with `got` held before them
(70_reset_and_hazards.md rule R141). -/
def refusalEvents (held : List Entry) (got : List Channel) : List (Channel × PortEvent) :=
  held.map (fun e => (e.color, .acquire)) ++
    ((held.map Entry.color).reverse ++ got).map fun c => (c, .release)

/-- Acquisition fails at the first handle the oracle refuses, entry j's. -/
theorem acquire_refused {cfg : ConfigRecord} {answers : List Bool} {got : List Channel} {s u : State}
    (h : acquire (cfg.zip answers) got s = (false, u)) :
    ∃ j, j < cfg.length ∧ (∀ b ∈ answers.take j, b = true) ∧ answers[j]? = some false ∧
      u = s.emitAll (refusalEvents (cfg.take j) got) := by
  induction cfg generalizing answers got s with
  | nil => cases h
  | cons e cfg ih =>
    cases answers with
    | nil => cases h
    | cons answer answers =>
      cases answer with
      | false =>
        cases h
        exact ⟨0, Nat.succ_pos _, nofun, rfl, foldl_emit _ _ _⟩
      | true =>
        obtain ⟨j, inside, granted, refused, rfl⟩ := ih h
        exact ⟨j + 1, Nat.succ_lt_succ inside, List.forall_mem_cons.mpr ⟨rfl, granted⟩, refused,
          by simp [refusalEvents]⟩

theorem refusalEvents_handles (held : List Entry) (got : List Channel) :
    ∀ ce ∈ refusalEvents held got, ce.2 = .acquire ∨ ce.2 = .release := by
  intro ce hce
  rcases List.mem_append.mp hce with h | h <;> obtain ⟨_, -, rfl⟩ := List.mem_map.mp h
  · exact .inl rfl
  · exact .inr rfl

/-! ## How a host command answers -/

/-- How a host command i that takes s to t comes to its answer r (60_exceptions.md rules R119, R120;
70_reset_and_hazards.md rule R141). -/
inductive HostAnswer (i : Instr) (s t : State) (r : Response) : Prop
  | ok (status : r.status = .ok)
  | rejected (result : r.result = 0) (same : t = { s with response := some r })
      (admission : r.status = .invalidState → admits s.lifecycle i = false)
  /-- An INIT to which the oracle refuses a handle. -/
  | unavailable {cfg : ConfigRecord} {u : State} (command : i = .init cfg)
      (handles : acquire (cfg.zip s.oracle.toList) [] s = (false, u))
      (answer : r = { status := .resourceUnavailable, result := 0 }) (same : t = { u with response := some r })

section Answer
variable {i : Instr} {s t : State} {r : Response}

theorem HostAnswer.of_reject {st : Status} (hx : reject st s = .next t) (answer : t.response = some r)
    (admission : st = .invalidState → admits s.lifecycle i = false) : HostAnswer i s t r := by
  cases hx
  cases answer
  exact .rejected rfl rfl admission

/-- A command past its checks answers OK, if it answers at all. -/
theorem HostAnswer.of_endCommand {p : Proc} (hx : endCommand i p = .next t) (answer : t.response = some r) :
    HostAnswer i s t r := by
  rcases endCommand_cases hx with ⟨u, -, rfl⟩ | ⟨f, u, -, rfl⟩ <;> cases answer
  exact .ok rfl

/-- A host command answers OK, is rejected, or is an INIT without its handles. -/
theorem exec_hostAnswer (host : i.isEvent = false) (hx : exec i s = .next t) (answer : t.response = some r) :
    HostAnswer i s t r := by
  have rejected : ∀ {st : Status}, reject st s = .next t →
      (st = .invalidState → admits s.lifecycle i = false) → HostAnswer i s t r :=
    fun hx => .of_reject hx answer
  have performed : ∀ {p : Proc}, endCommand i p = .next t → HostAnswer i s t r :=
    fun hx => .of_endCommand hx answer
  cases i with
  | setb ch v =>
    simp only [exec, execSetb] at hx
    split at hx
    · rename_i idle
      exact rejected hx fun _ => beq_false_of_ne idle
    · split at hx
      · exact rejected hx nofun
      · split at hx
        · exact rejected hx nofun
        · split at hx
          · exact rejected hx nofun
          · exact performed hx
  | update =>
    simp only [exec, execUpdate] at hx
    split at hx
    · rename_i idle
      exact rejected hx fun _ => beq_false_of_ne idle
    · exact performed hx
  | act ch ef =>
    simp only [exec, execAct] at hx
    split at hx
    · rename_i idle
      exact rejected hx fun _ => beq_false_of_ne idle
    · split at hx
      · exact rejected hx nofun
      · split at hx
        · exact rejected hx nofun
        · exact performed hx
  | deact ef =>
    simp only [exec, execDeact] at hx
    split at hx
    · rename_i idle
      exact rejected hx fun _ => beq_false_of_ne idle
    · split at hx
      · exact rejected hx nofun
      · exact performed hx
  | shutdown =>
    simp only [exec, execShutdown] at hx
    split at hx
    · rename_i idle
      exact rejected hx fun _ => beq_false_of_ne idle
    · exact performed hx
  | rdb ch =>
    simp only [exec, execRdb] at hx
    split at hx
    · exact rejected hx nofun
    · cases hx
      cases answer
      exact .ok rfl
  | rdfx =>
    cases hx
    cases answer
    exact .ok rfl
  | init cfg =>
    simp only [exec, execInit] at hx
    split at hx
    · rename_i running
      exact rejected hx fun _ => by simp [admits, running]
    · split at hx
      · split at hx
        · rename_i u handles
          cases hx
          cases answer
          exact .unavailable rfl handles rfl rfl
        · exact performed hx
      · exact rejected hx nofun
  | fire | tickPulse | tickBlink | tickHeartbeat | tickRainbow => cases host

end Answer

/-- Settles O23: a command that does not answer OK is rejected, or an INIT whose acquisition stopped at the
first refused handle (`exec_hostAnswer`, `acquire_refused`). -/
theorem failedCommandWritesNothing : Obligations.FailedCommandWritesNothing := by
  refine ⟨fun i s t r host hx answer failed => ?_, fun s => rfl⟩
  rcases exec_hostAnswer host hx answer with ok | ⟨result, same⟩ | ⟨rfl, handles, rfl, rfl⟩
  · exact absurd ok failed
  · exact ⟨result, .inl same⟩
  · obtain ⟨j, inside, granted, refused, rfl⟩ := acquire_refused handles
    refine ⟨rfl, .inr ⟨rfl, _, j, rfl, inside, granted, refused, ?_⟩⟩
    rw [emitAll_handles _ (refusalEvents_handles _ _)]
    simp [refusalEvents, Function.comp_def]

/-- Settles O24: the admission check comes first (`exec_not_admitted`), no later one answers INVALID_STATE
(`exec_hostAnswer`), and outside RUNNING no timer is armed (I5). -/
theorem admissionByLifecycle : Obligations.AdmissionByLifecycle := by
  refine ⟨fun i s _ refused => exec_not_admitted refused, fun i s t r host admitted hx answer => ?_,
    fun s inv idle id => ?_⟩
  · rcases exec_hostAnswer host hx answer with ok | ⟨-, -, admission⟩ | ⟨-, -, rfl, -⟩
    · simp [ok]
    · exact fun invalid => by simp [admission invalid] at admitted
    · nofun
  · have unarmed := (inv.quietUnlessRunning idle).1 id
    simp [State.due, unarmed]

/-! ## The order of the errors -/

theorem Effect.ofField_eq_none {ef : BitVec 4} (h : 4 ≤ ef.toNat) : Effect.ofField ef = none := by
  revert h ef
  decide

/-- Once the block runs, ACT and DEACT check EF before anything else. -/
theorem exec_badEffect {s : State} {ef : BitVec 4} (running : s.lifecycle = .running)
    (bad : Effect.ofField ef = none) (ch : BitVec 4) :
    exec (.act ch ef) s = reject .invalidEffect s ∧ exec (.deact ef) s = reject .invalidEffect s := by
  simp only [exec, execAct, execDeact, running, ne_eq, not_true_eq_false, if_false, bad, and_self]

section BadChannel
variable {s : State} {ch : BitVec 4} (running : s.lifecycle = .running)
  (bad : ∀ c, Channel.ofField ch = some c → s.kind.get c = .unassigned)
include bad

/-- ACT of Pulse finds no target in a channel that does not exist or is Unassigned. -/
theorem actTarget_pulse_badChannel : actTarget .pulse ch s = none := by
  simp only [actTarget]
  split
  · rfl
  · rename_i c hc
    exact if_pos (bad c hc)

include running

theorem exec_actPulse_badChannel : exec (.act ch 0) s = reject .invalidChannel s := by
  have pulse : Effect.ofField 0 = some .pulse := rfl
  simp only [exec, execAct, running, ne_eq, not_true_eq_false, if_false, pulse,
    actTarget_pulse_badChannel bad]

/-- SETB checks its channel before its value. -/
theorem exec_setb_badChannel (v : Word) : exec (.setb ch v) s = reject .invalidChannel s := by
  simp only [exec, execSetb, running, ne_eq, not_true_eq_false, if_false]
  split
  · rfl
  · rename_i c hc
    exact if_pos (bad c hc)

end BadChannel

theorem exec_setb_tooBright {s : State} {c : Channel} {v : Word} (running : s.lifecycle = .running)
    (assigned : s.kind.get c ≠ .unassigned) (above : s.maxbOf c < v) :
    exec (.setb c.field v) s = reject .invalidBrightness s := by
  simp only [exec, execSetb, running, ne_eq, not_true_eq_false, if_false, Channel.ofField_field, assigned,
    above, if_true]

/-- INIT checks its record before it asks the oracle. -/
theorem exec_init_invalid {s : State} {cfg : ConfigRecord} (idle : s.lifecycle ≠ .running)
    (invalid : validConfig cfg = false) : exec (.init cfg) s = reject .configurationError s := by
  simp only [exec, execInit, idle, if_false, invalid, Bool.false_eq_true]

/-- Settles O25: each command's checks stand in the order of the rule, and the first that fails rejects it. -/
theorem errorsInOrder : Obligations.ErrorsInOrder :=
  ⟨fun _ ch _ running high => exec_badEffect running (Effect.ofField_eq_none high) ch,
    fun _ _ running bad => ⟨exec_actPulse_badChannel running bad, exec_setb_badChannel running bad⟩,
    fun _ _ _ running assigned above => exec_setb_tooBright running assigned above,
    fun _ _ idle invalid => exec_init_invalid idle invalid⟩

end Sys2Proof.Machine
end

section
/-! An inert timer (60_exceptions.md rules R125, R126; 70_reset_and_hazards.md rule R145): while its effect is
inactive no step re-arms FXT[k] or sets the clock back without disarming it, so it stays due until the timer unit
serves it, and its own tick then disarms it. -/

namespace Sys2Proof.Machine

/-! ## What a step does to the timer of an inactive effect -/

/-- ACT arms the timer of the effect it activates alone. -/
theorem activate_fxt_ne {k l : Effect} {target : Option Channel} {s : State}
    (inactive : maskHas (activate l target s).activeMask k = false) :
    (activate l target s).fxt.get k = s.fxt.get k := by
  have other : k ≠ l := by
    rintro rfl
    exact absurd inactive (by simp [activate, maskHas_effectBit])
  exact FxBank.get_set_ne _ _ other

/-- An instruction before and after which effect k is inactive leaves FXT[k] as it was, or disarms it. -/
theorem Moves.fxt_of_inactive {i : Instr} {s u : State} {k : Effect} (m : Moves i s u)
    (before : maskHas s.activeMask k = false) (after : maskHas u.activeMask k = false) :
    u.fxt.get k = s.fxt.get k ∨ (u.fxt.get k).armed = false := by
  have untouched : ∀ {v : State}, v.fxt = s.fxt → v.fxt.get k = s.fxt.get k := fun h => by rw [h]
  have other : ∀ {l : Effect}, maskHas s.activeMask l = true → k ≠ l := by
    rintro l active rfl
    exact absurd active (by simp [before])
  cases m with
  | setb _ _ _ _ refresh => exact .inl (untouched refresh.fxt)
  | update _ refresh => exact .inl (untouched refresh.fxt)
  | act => exact .inl (activate_fxt_ne after)
  | actReplace _ _ _ _ refresh => exact .inl ((activate_fxt_ne after).trans (untouched refresh.fxt))
  | actStop _ _ refresh => exact .inl (untouched refresh.fxt)
  | deact _ _ _ refresh => exact .inl (untouched refresh.fxt)
  | shutdown => exact .inr (turnedOff_timer s (.effect k))
  | initFailed _ _ handles =>
    obtain ⟨_, -, rfl⟩ := acquire_log_only handles
    exact .inl rfl
  | init => exact .inr (by simp [commitConfig])
  | @tickQuiet _ l =>
    by_cases own : k = l
    · subst own
      exact .inr (by simp)
    · exact .inl (FxBank.get_set_ne _ _ own)
  | tick _ active body refresh =>
    rw [State.armFxt_fxt, FxBank.get_set_ne _ _ (other active), refresh.fxt, body.same]
    exact .inl (FxBank.get_set_ne _ _ (other active))
  | tickStop _ active body refresh =>
    rw [refresh.fxt, body.same]
    exact .inl (FxBank.get_set_ne _ _ (other active))
  | keep | fireSteady | fireToggle | fireStop => exact .inl rfl

/-- FXT[k] as it was and no time lost, or FXT[k] disarmed. -/
def KeptOrDisarmed (k : Effect) (s t : State) : Prop :=
  (t.fxt.get k = s.fxt.get k ∧ s.nowNs ≤ t.nowNs) ∨ (t.fxt.get k).armed = false

theorem exec_keptOrDisarmed {i : Instr} {s t : State} {k : Effect} (hx : exec i s = .next t)
    (before : maskHas s.activeMask k = false) (after : maskHas t.activeMask k = false) :
    KeptOrDisarmed k s t := by
  obtain ⟨u, m, a⟩ := exec_moves hx
  rw [KeptOrDisarmed, a.fxt, exec_nowNs hx]
  exact (m.fxt_of_inactive before (a.activeMask ▸ after)).imp_left fun same => ⟨same, BitVec.le_refl _⟩

theorem step_keptOrDisarmed {s t : State} {k : Effect} (hs : step s = .next t)
    (before : maskHas s.activeMask k = false) (after : maskHas t.activeMask k = false) :
    KeptOrDisarmed k s t := by
  have unchanged : ∀ {v : State}, v.fxt = s.fxt → v.nowNs = s.nowNs → KeptOrDisarmed k s v :=
    fun timers time => .inl ⟨congrArg (·.get k) timers, BitVec.le_of_eq time.symm⟩
  rcases step_cases hs with ⟨_, -, rfl⟩ | ⟨-, ⟨-, rfl⟩ | ⟨_, _, _, _, _, -, -, -, hx⟩ |
    ⟨_, _, _, _, -, rfl⟩ | ⟨_, _, -, rfl⟩ | ⟨_, _, _, _, -, -, -, -, hx⟩ | ⟨_, _, -, rfl⟩ |
    ⟨t', _, -, guard, rfl⟩ | ⟨_, _, -, rfl⟩⟩
  · exact .inr (by simp [platformReset, State.reset, Timer.atReset])
  · exact unchanged rfl rfl
  · have kept := exec_keptOrDisarmed hx before after
    exact kept
  · exact unchanged rfl rfl
  · exact unchanged rfl rfl
  · have kept := exec_keptOrDisarmed hx before after
    exact kept
  · exact unchanged rfl rfl
  · exact .inl ⟨rfl, BitVec.le_of_lt ((canAdvance_iff t' s).mp guard).1⟩
  · exact unchanged rfl rfl

/-- The EVT word of an effect's timer decodes to its tick. -/
theorem decode_effect_word (k : Effect) : decode [(TimerId.effect k).word] [] = .instr (tickOf k) [] [] := by
  cases k <;> decide

/-- Serving the due timer of an inactive effect disarms it. -/
theorem step_serves_inactive {s t : State} {k : Effect} (hs : step s = .next t)
    (serves : s.serves (.effect k)) (due : s.due (.effect k) = true)
    (inactive : maskHas s.activeMask k = false) : (t.fxt.get k).armed = false := by
  obtain ⟨rest, turn⟩ := serves
  obtain ⟨armed, past⟩ := Bool.and_eq_true_iff.mp due
  have running : s.fault = .none := by
    simp only [step, turn] at hs
    exact (unlessHalted_next hs).1
  rw [stepRunsDueEvent s _ rest (tickOf k) (.effect k) running turn (decode_effect_word k) (by cases k <;> rfl)
    armed (of_decide_eq_true past), inactiveTickCancelsItself { s with agenda := rest } k inactive] at hs
  cases hs
  simp

/-! ## Along a run -/

section Run
variable {run : Nat → State} {k : Effect} {n : Nat} (isRun : IsRun run)
  (inactive : ∀ m, n ≤ m → maskHas (run m).activeMask k = false)
include isRun inactive

/-- As long as it stays armed, the timer of an inactive effect stays as it was and no time is lost. -/
theorem inertTimer_kept {j : Nat} (later : n ≤ j)
    (armed : ∀ i, n < i → i ≤ j → ((run i).fxt.get k).armed = true) :
    (run j).fxt.get k = (run n).fxt.get k ∧ (run n).nowNs ≤ (run j).nowNs := by
  induction j, later using Nat.le_induction with
  | base => exact ⟨rfl, BitVec.le_refl _⟩
  | succ j later ih =>
    obtain ⟨same, time⟩ := ih fun i hi hij => armed i hi (Nat.le_succ_of_le hij)
    rcases step_keptOrDisarmed (isRun j) (inactive j later) (inactive (j + 1) (Nat.le_succ_of_le later)) with
      ⟨kept, passed⟩ | disarmed
    · exact ⟨kept.trans same, BitVec.le_trans time passed⟩
    · simp [armed (j + 1) (Nat.lt_succ_of_le later) le_rfl] at disarmed

/-- On a weakly fair run the timer of an inactive effect does not stay armed. -/
theorem inertTimer_disarmed (fair : WeaklyFair run) (due : (run n).due (.effect k) = true) :
    ∃ m, n < m ∧ ((run m).fxt.get k).armed = false := by
  by_contra never
  push Not at never
  have armed : ∀ i, n < i → ((run i).fxt.get k).armed = true := fun i hi => by simpa using never i hi
  obtain ⟨atStart, past⟩ := Bool.and_eq_true_iff.mp due
  have stays : ∀ m, n ≤ m → (run m).due (.effect k) = true := fun m hm => by
    obtain ⟨same, time⟩ := inertTimer_kept isRun inactive hm fun i hi _ => armed i hi
    rw [State.due, State.timer, same]
    exact Bool.and_eq_true_iff.mpr ⟨atStart, decide_eq_true (BitVec.le_trans (of_decide_eq_true past) time)⟩
  obtain ⟨m, hm, serves⟩ := fair n (.effect k) stays
  exact never (m + 1) (Nat.lt_succ_of_le hm)
    (step_serves_inactive (isRun m) serves (stays m hm) (inactive m hm))

end Run

/-- Settles O46: the first step that finds the timer disarmed exists by weak fairness (`inertTimer_disarmed`), and
before it the timer stays as it was (`inertTimer_kept`). -/
theorem inertTimerIsServed : Obligations.InertTimerIsServed := by
  intro run k n isRun fair due inactive
  have ends := inertTimer_disarmed isRun inactive fair due
  obtain ⟨later, disarmed⟩ := Nat.find_spec ends
  refine ⟨Nat.find ends, later, disarmed, fun j hj before => ?_⟩
  have armed : ∀ i, n < i → i ≤ j → ((run i).fxt.get k).armed = true := fun i hi hij => by
    simpa [hi] using Nat.find_min ends (Nat.lt_of_le_of_lt hij before)
  exact (inertTimer_kept isRun inactive hj armed).1

end Sys2Proof.Machine
end

section
/-! The reference scheduler (60_exceptions.md rule R127): the fold that picks a timer picks the earliest deadline,
the first in the tie-break order among equals, and the move it proposes is enabled. -/

namespace Sys2Proof.Machine

/-! ## The earliest timer -/

/-- The order of 60_exceptions.md rule R127: the earlier deadline, then the lower rank. -/
def State.Precedes (s : State) (a b : TimerId) : Prop :=
  (s.timer a).deadline < (s.timer b).deadline ∨
    ((s.timer a).deadline = (s.timer b).deadline ∧ a.rank ≤ b.rank)

theorem State.Precedes.refl (s : State) (a : TimerId) : s.Precedes a a := .inr ⟨rfl, le_rfl⟩

theorem State.Precedes.trans {s : State} {a b c : TimerId} (h : s.Precedes a b) (g : s.Precedes b c) :
    s.Precedes a c := by
  unfold State.Precedes at *
  bv_omega

theorem State.Precedes.deadline_le {s : State} {a b : TimerId} (h : s.Precedes a b) :
    (s.timer a).deadline ≤ (s.timer b).deadline := by
  rcases h with earlier | ⟨same, -⟩
  · exact BitVec.le_of_lt earlier
  · exact BitVec.le_of_eq same

/-- Of two timers in rank order `earlier` keeps the one that precedes the other. -/
theorem earlier_precedes (s : State) {b t : TimerId} (order : b.rank < t.rank) :
    ∃ a, earlier s (some b) t = some a ∧ (a = b ∨ a = t) ∧ s.Precedes a b ∧ s.Precedes a t := by
  simp only [earlier]
  split
  · rename_i sooner
    exact ⟨t, rfl, .inr rfl, .inl sooner, .refl s t⟩
  · rename_i later
    refine ⟨b, rfl, .inl rfl, .refl s b, ?_⟩
    unfold State.Precedes
    bv_omega

/-- Over a list in rank order the fold keeps the timer that precedes all the others. -/
theorem foldl_earlier {s : State} {b : TimerId} {ts : List TimerId}
    (order : (b :: ts).Pairwise (fun x y => x.rank < y.rank)) :
    ∃ t, ts.foldl (earlier s) (some b) = some t ∧ t ∈ b :: ts ∧
      ∀ other ∈ b :: ts, s.Precedes t other := by
  induction ts generalizing b with
  | nil => exact ⟨b, rfl, List.mem_singleton.mpr rfl, List.forall_mem_singleton.mpr (.refl s b)⟩
  | cons x ts ih =>
    obtain ⟨behind, rest⟩ := List.pairwise_cons.mp order
    obtain ⟨a, kept, which, best⟩ := earlier_precedes s (behind x List.mem_cons_self)
    have shorter : (a :: ts).Pairwise (fun x y => x.rank < y.rank) := by
      rcases which with rfl | rfl
      · exact List.pairwise_cons.mpr ⟨fun y hy => behind y (List.mem_cons_of_mem x hy), rest.of_cons⟩
      · exact rest
    obtain ⟨t, ht, stands, first⟩ := ih shorter
    obtain ⟨beforeA, beforeRest⟩ := List.forall_mem_cons.mp first
    refine ⟨t, by rw [List.foldl_cons, kept, ht], ?_, List.forall_mem_cons.mpr
      ⟨beforeA.trans best.1, List.forall_mem_cons.mpr ⟨beforeA.trans best.2, beforeRest⟩⟩⟩
    rcases List.mem_cons.mp stands with rfl | later
    · rcases which with rfl | rfl <;> simp
    · exact List.mem_cons_of_mem _ (List.mem_cons_of_mem _ later)

theorem allTimers_in_rank_order : allTimers.Pairwise (fun x y => x.rank < y.rank) := by decide

/-- The earliest of the timers with a property, if there is one. -/
theorem earliest_filter (s : State) (p : TimerId → Bool) :
    (earliest s (allTimers.filter p) = none ∧ ∀ id, p id = false) ∨
    ∃ t, earliest s (allTimers.filter p) = some t ∧ p t = true ∧
      ∀ other, p other = true → s.Precedes t other := by
  have order := allTimers_in_rank_order.filter p
  have inList : ∀ id, p id = true → id ∈ allTimers.filter p :=
    fun id hp => List.mem_filter.mpr ⟨mem_allTimers id, hp⟩
  cases chosen : allTimers.filter p with
  | nil =>
    refine .inl ⟨rfl, fun id => ?_⟩
    rw [Bool.eq_false_iff]
    exact fun hp => List.not_mem_nil (chosen ▸ inList id hp)
  | cons b ts =>
    rw [chosen] at order
    obtain ⟨t, ht, stands, first⟩ := foldl_earlier (s := s) order
    rw [← chosen] at stands first
    exact .inr ⟨t, ht, (List.mem_filter.mp stands).2, fun other hp => first other (inList other hp)⟩

/-! ## The earlier of two times -/

theorem earlierTime_eq_none {a b : Option Time} (h : earlierTime a b = none) : a = none ∧ b = none := by
  cases a with
  | none => exact ⟨rfl, h⟩
  | some a =>
    cases b with
    | none => cases h
    | some b =>
      simp only [earlierTime] at h
      split at h <;> cases h

theorem earlierTime_eq_some {a b : Option Time} {u : Time} (h : earlierTime a b = some u) :
    (a = some u ∨ b = some u) ∧ (∀ v, a = some v → u ≤ v) ∧ ∀ v, b = some v → u ≤ v := by
  have itself : ∀ {w : Time} (v : Time), some w = some v → w ≤ v :=
    fun v hv => BitVec.le_of_eq (Option.some.inj hv)
  cases a with
  | none =>
    cases b with
    | none => cases h
    | some b =>
      cases h
      exact ⟨.inr rfl, nofun, itself⟩
  | some a =>
    cases b with
    | none =>
      cases h
      exact ⟨.inl rfl, itself, nofun⟩
    | some b =>
      simp only [earlierTime] at h
      split at h <;> rename_i order <;> cases h
      · exact ⟨.inr rfl, fun v hv => Option.some.inj hv ▸ BitVec.le_of_lt order, itself⟩
      · exact ⟨.inl rfl, itself, fun v hv => Option.some.inj hv ▸ BitVec.not_lt.mp order⟩

/-! ## The move -/

/-- The earliest deadline of an armed timer (60_exceptions.md rule R127). -/
def State.nextDeadline (s : State) : Option Time :=
  (earliest s (allTimers.filter fun t => (s.timer t).armed)).map fun t => (s.timer t).deadline

theorem nextDeadline_eq_none {s : State} (h : s.nextDeadline = none) (id : TimerId) :
    (s.timer id).armed = false := by
  rcases earliest_filter s (fun t => (s.timer t).armed) with ⟨-, quiet⟩ | ⟨t, ht, -, -⟩
  · exact quiet id
  · simp [State.nextDeadline, ht] at h

theorem nextDeadline_eq_some {s : State} {d : Time} (h : s.nextDeadline = some d) :
    (∃ id, (s.timer id).armed = true ∧ (s.timer id).deadline = d) ∧
      ∀ id, (s.timer id).armed = true → d ≤ (s.timer id).deadline := by
  rcases earliest_filter s (fun t => (s.timer t).armed) with ⟨none, -⟩ | ⟨t, ht, armed, first⟩
  · simp [State.nextDeadline, none] at h
  · rw [State.nextDeadline, ht, Option.map_some, Option.some.injEq] at h
    subst h
    exact ⟨⟨t, armed, rfl⟩, fun id ha => (first id ha).deadline_le⟩

/-- The time of the next thing to do. -/
theorem earlierTime_nextDeadline {s : State} {next : Option Time} {u : Time}
    (h : earlierTime s.nextDeadline next = some u) :
    (∀ id, (s.timer id).armed = true → u ≤ (s.timer id).deadline) ∧ (∀ v, next = some v → u ≤ v) ∧
      ((∃ id, (s.timer id).armed = true ∧ (s.timer id).deadline = u) ∨ next = some u) := by
  obtain ⟨which, deadline, command⟩ := earlierTime_eq_some h
  refine ⟨fun id armed => ?_, command, which.imp_left fun hd => (nextDeadline_eq_some hd).1⟩
  cases hd : s.nextDeadline with
  | none => simp [nextDeadline_eq_none hd id] at armed
  | some d => exact BitVec.le_trans (deadline d hd) ((nextDeadline_eq_some hd).2 id armed)

/-- With nothing due, the time of the next thing to do is one the clock may move to. -/
theorem canAdvance_next {s : State} {next : Option Time} {u : Time} (quiet : ∀ id, s.due id = false)
    (later : ∀ v, next = some v → s.nowNs < v) (h : earlierTime s.nextDeadline next = some u) :
    canAdvance u s = true := by
  obtain ⟨bound, -, which⟩ := earlierTime_nextDeadline h
  refine (canAdvance_iff u s).mpr ⟨?_, fun id armed => le_add_right (bound id armed)⟩
  rcases which with ⟨id, armed, rfl⟩ | command
  · have notDue := quiet id
    rw [State.due, armed, Bool.true_and, decide_eq_false_iff_not] at notDue
    exact BitVec.not_le.mp notDue
  · exact later u command

/-- Settles O60: a due timer is the earliest of the due ones (`earliest_filter`); with none, the host's command
is due or later than NOW_NS, and then the time to advance to is `canAdvance_next`'s. -/
theorem referenceMoveIsAdmitted : Obligations.ReferenceMoveIsAdmitted := by
  intro answers next s
  rcases earliest_filter s s.due with ⟨none, quiet⟩ | ⟨t, ht, due, first⟩
  · by_cases command : next.any (fun t => decide (t ≤ s.nowNs)) = true
    · obtain ⟨u, hu, hle⟩ := (Option.any_eq_true _ _).mp command
      simp only [referenceMove, none, command, if_true]
      exact ⟨trivial, quiet, u, hu, of_decide_eq_true hle⟩
    · have later : ∀ v, next = some v → s.nowNs < v := by
        rintro v rfl
        simpa using command
      have move : referenceMove answers next s = (earlierTime s.nextDeadline next).map .advance := by
        simp only [referenceMove, none, if_neg command, State.nextDeadline]
      rw [move]
      cases time : earlierTime s.nextDeadline next with
      | none =>
        obtain ⟨deadline, command⟩ := earlierTime_eq_none time
        exact ⟨nextDeadline_eq_none deadline, command⟩
      | some u =>
        obtain ⟨bound, before, which⟩ := earlierTime_nextDeadline time
        exact ⟨quiet, later, canAdvance_next quiet later time, bound, before, which⟩
  · simp only [referenceMove, ht]
    exact ⟨t, rfl, due, first⟩

end Sys2Proof.Machine
end

section
/-! Reset (70_reset_and_hazards.md rule R135): from any state it leaves the block as it started, whatever the
outside world has supplied. -/

namespace Sys2Proof.Machine

/-- Every register reads its reset value after a reset (10_state.md rule R41). -/
theorem platformReset_reg (s : State) (r : Reg) : (platformReset s).reg r = State.reset.reg r := by
  cases r <;> rfl

/-- Before the first INIT the host may only send INIT, RDB and RDFX (60_exceptions.md rule R120). -/
theorem not_admitted_unconfigured {i : Instr} (host : i.isEvent = false) (init : ∀ cfg, i ≠ .init cfg)
    (rdb : ∀ ch, i ≠ .rdb ch) (rdfx : i ≠ .rdfx) : admits .unconfigured i = false := by
  cases i with
  | init cfg => exact absurd rfl (init cfg)
  | rdb ch => exact absurd rfl (rdb ch)
  | rdfx => exact absurd rfl rdfx
  | setb | update | act | deact | shutdown => rfl
  | fire | tickPulse | tickBlink | tickHeartbeat | tickRainbow => cases host

/-- Settles O16: the registers are `platformReset_reg`, admission is that of UNCONFIGURED
(`admissionByLifecycle`), and no timer is armed outside RUNNING (I5). -/
theorem resetStartsAgain : Obligations.ResetStartsAgain := by
  intro s rest ha
  obtain ⟨refused, admitted, -⟩ := admissionByLifecycle
  refine ⟨platformReset { s with agenda := rest }, by simp only [step, ha], platformReset_reg _, rfl,
    fun c => ?_, rfl, fun i host init rdb rdfx => ?_, fun cfg u r hx answer => ?_, ?_⟩
  · rw [exec_rdb_channel, brightOf_unassigned (Bank.get_all _ c)]
    rfl
  · exact refused i _ host (not_admitted_unconfigured host init rdb rdfx)
  · exact admitted _ _ u r rfl rfl hx answer
  · exact ((platformReset_invariants _).quietUnlessRunning nofun).1

end Sys2Proof.Machine
end

section
/-! The effect hazards: the one tick still to come after a DEACT (70_reset_and_hazards.md rule R145), and the
instructions that write ACTIVE_MASK (rule R148). -/

namespace Sys2Proof.Machine

/-! ## The tick after DEACT -/

/-- Settles O45: DEACT clears the bit and leaves FXT (`exec_deact_active`, `refreshed_restoredFrom`), so the tick
that still comes only cancels itself. -/
theorem inertTickAfterDeact : Obligations.InertTickAfterDeact := by
  intro s k running active covers
  have deact := exec_deact_active running active covers
  have d := refreshed_restoredFrom k covers
  generalize refreshed (restoredFrom k s) = u at deact d
  have inactive : maskHas (u.respond .ok 0).activeMask k = false := by
    rw [State.respond_activeMask, d.activeMask, maskHas_maskClear_same]
  refine ⟨_, _, deact, d.fxt, inactiveTickCancelsItself _ k inactive, rfl, rfl, ?_, ?_⟩
  · simp only [FxBank.get_set_same]
  · simp only [FxBank.get_set_same, State.respond_fxt, d.fxt]

/-! ## The writers of ACTIVE_MASK -/

/-- The instructions that may write ACTIVE_MASK: ACT, DEACT, SHUTDOWN and INIT. -/
def WritesMask (i : Instr) : Prop :=
  (∃ ch ef, i = .act ch ef) ∨ (∃ ef, i = .deact ef) ∨ i = .shutdown ∨ ∃ cfg, i = .init cfg

/-- I2 looks at ACTIVE_MASK only. -/
theorem State.OneEffect.congr {s t : State} (h : s.OneEffect) (same : t.activeMask = s.activeMask) :
    t.OneEffect := by
  rwa [State.OneEffect, same]

/-- Deactivating the one active effect leaves none. -/
theorem Refreshed.activeMask_of_restored {s u : State} {k : Effect} (refresh : Refreshed (restoredFrom k s) u)
    (active : maskHas s.activeMask k = true) (one : s.OneEffect) : u.activeMask = 0 :=
  refresh.activeMask.trans (one.maskClear_active active)

theorem BodyMoves.activeMask {k : Effect} {s b : State} (h : BodyMoves k s b) : b.activeMask = s.activeMask := by
  rw [h.same]

/-- A move leaves ACTIVE_MASK alone, or is one of its four writers and keeps at most one bit. -/
theorem Moves.activeMask {i : Instr} {s u : State} (m : Moves i s u) :
    u.activeMask = s.activeMask ∨ (WritesMask i ∧ (s.OneEffect → u.OneEffect)) := by
  cases m with
  | setb _ _ _ _ refresh => exact .inl refresh.activeMask
  | update _ refresh => exact .inl refresh.activeMask
  | act | actReplace => exact .inr ⟨.inl ⟨_, _, rfl⟩, fun _ => .inr ⟨_, rfl⟩⟩
  | actStop _ active refresh =>
    exact .inr ⟨.inl ⟨_, _, rfl⟩, fun one =>
      .inl (refresh.activeMask_of_restored (maskHas_of_effectBit active) one)⟩
  | deact _ _ active refresh =>
    exact .inr ⟨.inr (.inl ⟨_, rfl⟩), fun one => .inl (refresh.activeMask_of_restored active one)⟩
  | shutdown => exact .inr ⟨.inr (.inr (.inl rfl)), fun _ => .inl (turnedOff_activeMask s)⟩
  | initFailed _ _ handles =>
    obtain ⟨_, -, rfl⟩ := acquire_log_only handles
    exact .inl rfl
  | init => exact .inr ⟨.inr (.inr (.inr ⟨_, rfl⟩)), fun _ => .inl (initialised_activeMask _ _)⟩
  | tick _ _ body refresh => exact .inl (refresh.activeMask.trans body.activeMask)
  | tickStop _ _ body refresh => exact .inl (refresh.activeMask.trans body.activeMask)
  | keep | fireSteady | fireToggle | fireStop | tickQuiet => exact .inl rfl

/-- Settles O47, by `Moves.activeMask`. -/
theorem effectExclusivity : Obligations.EffectExclusivity := by
  intro i s t hx
  obtain ⟨u, m, a⟩ := exec_moves hx
  rcases m.activeMask with same | ⟨writes, one⟩
  · have kept : t.activeMask = s.activeMask := a.activeMask.trans same
    exact ⟨fun h => h.congr kept, fun changed => absurd kept changed⟩
  · exact ⟨fun h => (one h).congr a.activeMask, fun _ => writes⟩

end Sys2Proof.Machine
end

section
/-! The soft-PWM scheduler of a running channel is its own (70_reset_and_hazards.md rule R144; 41_softpwm.md rules
R83 to R85): a refresh re-arms no armed timer, and a firing touches its own channel alone. -/

namespace Sys2Proof.Machine

/-- From s to t channel c's soft-PWM timer, its level and its pin stay. -/
structure PwmKept (c : Channel) (s t : State) : Prop where
  timer : t.swt.get c = s.swt.get c
  level : t.swLevel.get c = s.swLevel.get c
  pin   : t.pin.get c = s.pin.get c

theorem PwmKept.trans {c : Channel} {s t u : State} (h : PwmKept c s t) (g : PwmKept c t u) : PwmKept c s u :=
  ⟨g.timer.trans h.timer, g.level.trans h.level, g.pin.trans h.pin⟩

theorem Answered.pwmKept {u t : State} (h : Answered u t) (c : Channel) : PwmKept c u t :=
  ⟨by rw [h.swt], by rw [h.swLevel], by rw [h.pin]⟩

/-- Before its refresh a tick has touched neither timers nor pins of the soft-PWM scheduler. -/
theorem BodyMoves.pwmKept {k : Effect} {s b : State} (h : BodyMoves k (s.disarmFxt k) b) (c : Channel) :
    PwmKept c s b := by
  rw [h.same]
  exact ⟨rfl, rfl, rfl⟩

/-- ArmSoft leaves an armed timer as it is (41_softpwm.md rule R84). -/
theorem softTimerAfter_armed {s : State} {c : Channel} (armed : (s.swt.get c).armed = true) :
    s.softTimerAfter c = s.swt.get c :=
  if_neg fun ⟨_, disarmed⟩ => by simp [armed] at disarmed

/-- A refresh drives no pin and leaves an armed timer as it is (41_softpwm.md rules R84, R85). -/
theorem Refreshed.pwmKept {s b u : State} (h : Refreshed b u) {c : Channel} (before : PwmKept c s b)
    (armed : (s.swt.get c).armed = true) : PwmKept c s u :=
  before.trans {
    timer := (h.timers c).elim id fun e => e.trans (softTimerAfter_armed (before.timer ▸ armed))
    level := by rw [h.swLevel]
    pin := by rw [h.pin] }

/-- A FIRE that is not channel c's names another channel. -/
theorem ne_of_fire_ne {ch : BitVec 4} {c d : Channel} (channel : Channel.ofField ch = some d)
    (other : Instr.fire ch ≠ .fire c.field) : c ≠ d := by
  rintro rfl
  exact other (by rw [Channel.field_of_ofField channel])

/-- Every move but the channel's own firing, SHUTDOWN and INIT leaves an armed channel alone. -/
theorem Moves.pwmKept {i : Instr} {s u : State} {c : Channel} (m : Moves i s u)
    (armed : (s.swt.get c).armed = true) (notFire : i ≠ .fire c.field) (notShutdown : i ≠ .shutdown)
    (notInit : ∀ cfg, i ≠ .init cfg) : PwmKept c s u := by
  cases m with
  | setb _ _ _ _ refresh => exact refresh.pwmKept ⟨rfl, rfl, rfl⟩ armed
  | update _ refresh => exact refresh.pwmKept ⟨rfl, rfl, rfl⟩ armed
  | actReplace _ _ _ _ refresh =>
    have restored : PwmKept c s _ := refresh.pwmKept ⟨rfl, rfl, rfl⟩ armed
    exact restored.trans ⟨rfl, rfl, rfl⟩
  | actStop _ _ refresh => exact refresh.pwmKept ⟨rfl, rfl, rfl⟩ armed
  | deact _ _ _ refresh => exact refresh.pwmKept ⟨rfl, rfl, rfl⟩ armed
  | shutdown => exact absurd rfl notShutdown
  | initFailed => exact absurd rfl (notInit _)
  | init => exact absurd rfl (notInit _)
  | fireSteady channel | fireToggle channel | fireStop channel =>
    have other := ne_of_fire_ne channel notFire
    constructor <;> simp [other]
  | tick _ _ body refresh => exact (refresh.pwmKept (body.pwmKept c) armed).trans ⟨rfl, rfl, rfl⟩
  | tickStop _ _ body refresh => exact refresh.pwmKept (body.pwmKept c) armed
  | keep | act | tickQuiet => exact ⟨rfl, rfl, rfl⟩

/-- Settles O51, by `Moves.pwmKept`. -/
theorem runningSoftPwmIsNotDisturbed : Obligations.RunningSoftPwmIsNotDisturbed := by
  intro i s t c hx armed notFire notShutdown notInit
  obtain ⟨u, m, a⟩ := exec_moves hx
  obtain ⟨timer, level, pin⟩ := (m.pwmKept armed notFire notShutdown notInit).trans (a.pwmKept c)
  exact ⟨timer, level, pin⟩

end Sys2Proof.Machine
end

section
/-! INIT's record (70_reset_and_hazards.md rules R139, R140; 20_memory.md rule R47): each of its checks says what
its rule says, and the period is that of the first HardwarePWM entry. -/

namespace Sys2Proof.Machine

/-! ## The checks -/

/-- V1 of 70_reset_and_hazards.md rule R139: the number of entries. -/
theorem countOk_iff (cfg : ConfigRecord) : countOk cfg = true ↔ 3 ≤ cfg.length ∧ cfg.length ≤ 4 := by
  simp only [countOk, Bool.and_eq_true, decide_eq_true_eq]
  rfl

/-- V2 of 70_reset_and_hazards.md rule R139: no colour twice. -/
theorem colorsDistinct_iff (cfg : ConfigRecord) :
    colorsDistinct cfg = true ↔ (cfg.map Entry.color).Nodup := decide_eq_true_iff

theorem entryFor_isSome_iff (cfg : ConfigRecord) (c : Channel) :
    (entryFor cfg c).isSome = true ↔ ∃ e ∈ cfg, e.color = c := by
  simp only [entryFor, List.find?_isSome, beq_iff_eq]

/-- V3 of 70_reset_and_hazards.md rule R139: Red, Green and Blue are the channels but White. -/
theorem requiredColors_iff (cfg : ConfigRecord) :
    requiredColors cfg = true ↔ ∀ c, c ≠ Channel.white → ∃ e ∈ cfg, e.color = c := by
  simp only [requiredColors, Bool.and_eq_true, entryFor_isSome_iff]
  constructor
  · rintro ⟨⟨red, green⟩, blue⟩ c hc
    cases c with
    | red => exact red
    | green => exact green
    | blue => exact blue
    | white => exact absurd rfl hc
  · exact fun h => ⟨⟨h .red nofun, h .green nofun⟩, h .blue nofun⟩

/-- V4 of 70_reset_and_hazards.md rule R139: every maximum is positive. -/
theorem maximaPositive_iff (cfg : ConfigRecord) :
    maximaPositive cfg = true ↔ ∀ e ∈ cfg, e.maxBrightness ≠ 0 := by
  simp only [maximaPositive, List.all_eq_true, bne_iff_ne]

theorem nonDecreasing_iff_isChain (t : List Word) : nonDecreasing t = true ↔ t.IsChain (· ≤ ·) := by
  induction t with
  | nil => simp [nonDecreasing]
  | cons a t ih =>
    cases t with
    | nil => simp [nonDecreasing]
    | cons b t =>
      rw [nonDecreasing, Bool.and_eq_true, decide_eq_true_eq, ih, List.isChain_cons_cons]

/-- A table is non-decreasing when no entry exceeds the one after it (20_memory.md rule R47). -/
theorem nonDecreasing_iff (t : List Word) : nonDecreasing t = true ↔
    ∀ (j : Nat) (a b : Word), t[j]? = some a → t[j + 1]? = some b → a ≤ b := by
  rw [nonDecreasing_iff_isChain, List.isChain_iff_getElem]
  constructor
  · intro h j a b ha hb
    obtain ⟨_, rfl⟩ := List.getElem?_eq_some_iff.mp ha
    obtain ⟨inside, rfl⟩ := List.getElem?_eq_some_iff.mp hb
    exact h j inside
  · intro h j inside
    exact h j _ _ (List.getElem?_eq_getElem _) (List.getElem?_eq_getElem inside)

/-- The shape of a levels table (20_memory.md rule R47). -/
theorem levelsShape_iff (m : Word) (t : List Word) : levelsShape m t = true ↔
    t.length = m.toNat + 1 ∧
      (∀ (j : Nat) (a b : Word), t[j]? = some a → t[j + 1]? = some b → a ≤ b) ∧ ∀ v ∈ t, v ≤ m := by
  simp only [levelsShape, Bool.and_eq_true, beq_iff_eq, nonDecreasing_iff, List.all_eq_true, decide_eq_true_eq,
    and_assoc]

/-- V5 of 70_reset_and_hazards.md rule R139: the shape of every levels table. -/
theorem levelsOk_iff (cfg : ConfigRecord) :
    levelsOk cfg = true ↔ ∀ e ∈ cfg, ∀ t, e.levels = some t → levelsShape e.maxBrightness t = true := by
  rw [levelsOk, List.all_eq_true]
  refine forall₂_congr fun e _ => ?_
  cases e.levels <;> simp

/-- V6 of 70_reset_and_hazards.md rule R139: the period is positive. -/
theorem periodOk_iff (cfg : ConfigRecord) : periodOk cfg = true ↔ configPeriod cfg ≠ 0 := bne_iff_ne

/-- V7 of 70_reset_and_hazards.md rule R139: no SoftwarePWM entry has a shortest pulse of 0. -/
theorem softLthPositive_iff (cfg : ConfigRecord) : softLthPositive cfg = true ↔
    ∀ e ∈ cfg, e.kind = .softwarePWM → configPeriod cfg / e.maxBrightness ≠ 0 := by
  simp only [softLthPositive, List.all_eq_true, Bool.or_eq_true, bne_iff_ne, ← imp_iff_not_or]

/-- Settles O52, check by check. -/
theorem initValidation : Obligations.InitValidation := by
  intro cfg
  rw [validConfig_iff, countOk_iff, colorsDistinct_iff, requiredColors_iff, maximaPositive_iff, levelsOk_iff,
    periodOk_iff, softLthPositive_iff]
  simp only [levelsShape_iff]

/-! ## The period -/

/-- SoftwarePWM entries in front do not matter for the period. -/
theorem find_hardware_none {pre : ConfigRecord} (soft : ∀ d ∈ pre, d.kind = .softwarePWM) :
    pre.find? (fun e => e.kind == .hardwarePWM) = none := by
  rw [List.find?_eq_none]
  intro d hd
  rw [soft d hd]
  decide

/-- Settles O53: the search for a HardwarePWM entry passes the SoftwarePWM ones (`find_hardware_none`). -/
theorem periodSelection : Obligations.PeriodSelection := by
  refine ⟨fun pre post e hard soft => ?_, fun cfg soft => ?_⟩
  · simp only [configPeriod, List.find?_append, find_hardware_none soft, Option.none_or, List.find?_cons, hard,
      beq_self_eq_true]
  · simp only [configPeriod, find_hardware_none soft]
    rfl

end Sys2Proof.Machine
end

section
/-! How INIT of a valid record ends (70_reset_and_hazards.md rules R139, R141 to R143): with every handle granted
the block is configured and runs; with one refused the handles held are released and nothing is written. -/

namespace Sys2Proof.Machine

/-! ## Acquisition of a record's handles -/

/-- The oracle's answers to a record whose first j handles are granted. -/
theorem zip_granted {cfg : ConfigRecord} {answers : List Bool} {j : Nat} (enough : j ≤ answers.length)
    (granted : ∀ b ∈ answers.take j, b = true) :
    cfg.zip answers = (cfg.take j).map (fun e => (e, true)) ++ (cfg.drop j).zip (answers.drop j) := by
  induction j generalizing cfg answers with
  | zero => rfl
  | succ j ih =>
    cases answers with
    | nil => cases enough
    | cons b answers =>
      obtain ⟨rfl, rest⟩ := List.forall_mem_cons.mp granted
      cases cfg with
      | nil => rfl
      | cons e cfg => exact congrArg _ (ih (Nat.le_of_succ_le_succ enough) rest)

/-- The ACQUIREs of a record whose handles are all granted, in list order. -/
def acquireEvents (cfg : ConfigRecord) : List (Channel × PortEvent) := cfg.map fun e => (e.color, .acquire)

/-- With an answer for every entry and none of them a refusal, every handle is acquired. -/
theorem acquire_granted {cfg : ConfigRecord} {answers : List Bool} (enough : cfg.length ≤ answers.length)
    (granted : ∀ b ∈ answers.take cfg.length, b = true) (s : State) :
    acquire (cfg.zip answers) [] s = (true, { s with log := s.log ++ s.stamped (acquireEvents cfg) }) := by
  have handles : ∀ ce ∈ acquireEvents cfg, ce.2 = .acquire ∨ ce.2 = .release := by simp [acquireEvents]
  rw [zip_granted enough granted, ← emitAll_handles _ handles, acquire_all _ (by simp)]
  simp [acquireEvents, Function.comp_def]

theorem State.emitAll_append (es fs : List (Channel × PortEvent)) (s : State) :
    s.emitAll (es ++ fs) = (s.emitAll es).emitAll fs := List.foldl_append

/-- Acquisition stops at the first handle the oracle refuses, entry j's (the converse of `acquire_refused`). -/
theorem acquire_stops {cfg : ConfigRecord} {answers : List Bool} {j : Nat} (inside : j < cfg.length)
    (granted : ∀ b ∈ answers.take j, b = true) (refused : answers[j]? = some false) (s : State) :
    acquire (cfg.zip answers) [] s = (false, s.emitAll (refusalEvents (cfg.take j) [])) := by
  obtain ⟨within, last⟩ := List.getElem?_eq_some_iff.mp refused
  rw [zip_granted within.le granted, List.drop_eq_getElem_cons inside, List.drop_eq_getElem_cons within, last,
    List.zip_cons_cons, acquire_fails _ (List.forall_mem_map.mpr fun _ _ => rfl)]
  simp [refusalEvents, State.emitAll_append, Function.comp_def]

/-! ## A handle refused -/

/-- Settles O55: acquisition stops at entry j (`acquire_stops`), and its events reach the log only
(`emitAll_handles`). -/
theorem initReleasesOnFailure : Obligations.InitReleasesOnFailure := by
  intro s cfg j idle valid inside granted refused
  simp only [exec, execInit, idle, if_false, valid, if_true, acquire_stops inside granted refused]
  rw [emitAll_handles _ (refusalEvents_handles _ _), reject_eq]
  simp [refusalEvents, Function.comp_def]

/-! ## Every handle granted -/

/-- INIT of a valid record whose handles are all granted (70_reset_and_hazards.md rule R139). -/
theorem exec_init_granted {s : State} {cfg : ConfigRecord} (idle : s.lifecycle ≠ .running)
    (valid : validConfig cfg = true) (granted : ∀ b ∈ s.oracle.toList.take cfg.length, b = true) :
    exec (.init cfg) s = .next (State.respond .ok 0
      { initialised cfg { s with log := s.log ++ s.stamped (acquireEvents cfg) } with lifecycle := .running }) := by
  obtain ⟨count, -⟩ := (validConfig_iff cfg).mp valid
  have enough : cfg.length ≤ s.oracle.toList.length := ((countOk_iff cfg).mp count).2
  simp only [exec, execInit, idle, if_false, valid, if_true, acquire_granted enough granted, endCommand_ok]
  rfl

theorem initialised_inputs (cfg : ConfigRecord) (s : State) : (initialised cfg s).inputs = s.inputs := by
  rw [State.inputs, initialised_cmdPort, initialised_cfgPort, initialised_oracle, initialised_agenda]
  rfl

/-- INIT disarms every timer and leaves its deadline (log entry 17). -/
theorem initialised_timer (cfg : ConfigRecord) (s : State) (id : TimerId) :
    (initialised cfg s).timer id = { s.timer id with armed := false } := by
  cases id with
  | soft c => exact (congrArg (·.get c) (initialised_swt cfg s)).trans (Bank.get_ofFn _ c)
  | effect k => exact (congrArg (·.get k) (initialised_fxt cfg s)).trans (FxBank.get_ofFn _ k)

/-- The configuration registers of a channel the record lists (70_reset_and_hazards.md rule R139). -/
theorem initialised_entry {cfg : ConfigRecord} (distinct : (cfg.map Entry.color).Nodup) {e : Entry} (he : e ∈ cfg)
    (s : State) :
    (initialised cfg s).kind.get e.color = kindOfEntry e.kind ∧
    (initialised cfg s).maxb.get e.color = e.maxBrightness ∧
    (initialised cfg s).levels.get e.color = e.levels ∧
    (initialised cfg s).lth.get e.color = configPeriod cfg / e.maxBrightness ∧
    (initialised cfg s).acquired.get e.color = true := by
  simp [commitConfig, entryFor_mem distinct he]

/-- A channel the record does not list is Unassigned, and its ports are UNKNOWN (log entry 13). -/
theorem initialised_unlisted {cfg : ConfigRecord} {c : Channel} (unlisted : ∀ e ∈ cfg, e.color ≠ c)
    (s : State) :
    (initialised cfg s).kind.get c = .unassigned ∧ (initialised cfg s).maxb.get c = 0 ∧
    (initialised cfg s).levels.get c = none ∧ (initialised cfg s).lth.get c = 0 ∧
    (initialised cfg s).acquired.get c = false ∧
    (initialised cfg s).generator.get c = Generator.unknown ∧ (initialised cfg s).pin.get c = none := by
  simp [initialised_generator, initialised_pin, commitConfig, entryFor_none unlisted]

theorem initialised_dark (cfg : ConfigRecord) (s : State) (c : Channel) :
    (initialised cfg s).bright.get c = 0 ∧ (initialised cfg s).savedColor.get c = 0 ∧
    (initialised cfg s).swLevel.get c = .low := by
  simp [commitConfig]

theorem initialised_generator_off {cfg : ConfigRecord} {s : State} {c : Channel}
    (hard : (initialised cfg s).kind.get c = .hardwarePWM) :
    ((initialised cfg s).generator.get c).enabled = some false := by
  rw [initialised_kind] at hard
  rw [initialised_generator, if_pos hard]

theorem initialised_pin_low {cfg : ConfigRecord} {s : State} {c : Channel}
    (soft : (initialised cfg s).kind.get c = .softwarePWM) : (initialised cfg s).pin.get c = some .low := by
  rw [initialised_kind] at soft
  rw [initialised_pin, if_pos soft]

/-- Settles O54: INIT commits the record and drives the outputs off (`exec_init_granted`), and each register is
what the lemmas on `initialised` say. -/
theorem initAccepts : Obligations.InitAccepts := by
  intro s cfg idle valid granted
  obtain ⟨-, distinct, -⟩ := (validConfig_iff cfg).mp valid
  rw [colorsDistinct_iff] at distinct
  refine ⟨_, exec_init_granted idle valid granted, rfl, rfl, initialised_periodNs cfg _,
    fun e he => initialised_entry distinct he _, fun c unlisted => initialised_unlisted unlisted _,
    initialised_dark cfg _, initialised_timer cfg _, initialised_activeMask cfg _, initialised_fxStep cfg _,
    initialised_phase cfg _, initialised_pulseCh cfg _, fun c => initialised_generator_off,
    fun c => initialised_pin_low, ?_, initialised_nowNs cfg _, initialised_fault cfg _, initialised_faultBy cfg _,
    initialised_inputs cfg _⟩
  simp [initialised_log, acquireEvents, State.stamped]

end Sys2Proof.Machine
end
